-- ==== Sys2Proof/Word.lean ====
section
/-! DEFINITION. The word types of the machine (spec/00_scope.md R8, R10). -/

namespace Sys2Proof

/-- A cell: the 8 bits of a register, of a memory location and of an instruction byte (R10). -/
abbrev Byte := BitVec 8

/-- An address: a cell in its address view, 0 to 255 (R10, R21). Every address exists (R50). -/
abbrev Addr := BitVec 8

end Sys2Proof
end

