-- ==== Sys2Proof/Machine/Bits.lean ====
section
/-! DEFINITION. The two readings of a cell, normalization and the bit counts (spec/00_scope.md R10, R11). -/

namespace Sys2Proof

/-- The address view of a cell, 0..255 (R10). -/
def uint (c : Byte) : Nat := c.toNat

/-- The signed view of a cell, -128..127, two's complement (R10). -/
def sint (c : Byte) : Int := c.toInt

/-- The cell congruent to an integer modulo 256 (R10). -/
def wrap8 (n : Int) : Byte := BitVec.ofInt 8 n

/-- The integer in -128..127 congruent to `n` modulo 256 (R10, R214). -/
def norm8 (n : Int) : Int := sint (wrap8 n)

/-- The address an integer names: its value modulo 256 (R51, R218). -/
def addrOf (n : Int) : Addr := wrap8 n

/-- The number of 1 bits of the cell of an integer, 0..8 (R11, R222). -/
def popcount8 (n : Int) : Nat :=
  ((List.range 8).filter fun j => (wrap8 n).getLsbD j).length

/-- The number of consecutive 0 bits of the cell of an integer, counted from bit 7 down, 0..8
(R11, R222). -/
def clz8 (n : Int) : Nat :=
  ((List.range 8).takeWhile fun j => !(wrap8 n).getMsbD j).length

end Sys2Proof
end

