-- ==== Sys2Proof/Config.lean ====
section
/-! DEFINITION. The sizes the spec fixes (spec/00_scope.md R8) and the values it leaves open. -/

namespace Sys2Proof.Config

/-- `MEM_SIZE`: the number of memory cells (R8, R50). -/
def memSize : Nat := 256

/-- `N_REG`: the number of registers (R8, R20). -/
def nReg : Nat := 7

/-- `N_FLAG`: the number of flags (R8, R27). -/
def nFlag : Nat := 5

/-- `N_NAME`: the size of the combined register-or-flag index space (R8, R27). -/
def nName : Nat := nReg + nFlag

/-- `N_OPCODE`: the number of defined opcodes (R8, R76). -/
def nOpcode : Nat := 100

/-- `MAX_ILEN`: the bytes of the longest instruction (R8, R71). -/
def maxIlen : Nat := 3

/-- `ENTRY`: the address of the first instruction (R8, R263). -/
def entry : Addr := 0

/-- A free value: what the instruction buffer holds after the n-th end of a run, by a halt or by a
fault. The spec leaves it open ("any value", 93_implementation_defined.md U17; R238). It has no body:
nothing can be proved of it. Log entry 1. -/
opaque bufferAfterEnd : Nat → List Byte

end Sys2Proof.Config
end

