-- ==== Sys2Proof/Syntax.lean ====
section
/-! DEFINITION. The syntax: registers, flags, operands and the 100 instructions, one constructor per
row of spec/opcode_table.json (spec/30_encoding.md R76), named by the row's full name. -/

namespace Sys2Proof

/-- The seven registers in index order 0 to 6 (R20). -/
inductive Reg where
  | a | b | c | d | ip | sb | sp
deriving DecidableEq, Repr

/-- The five flags in flag-index order, combined indices 7 to 11 (R27). -/
inductive Flag where
  | cf | pf | zf | sf | of
deriving DecidableEq, Repr

/-- A name of the one table of registers then flags, combined indices 0 to 11 (R22, R30). -/
inductive RegOrFlag where
  | reg (r : Reg)
  | flag (f : Flag)
deriving DecidableEq, Repr

/-- The accumulator: register `a`, index 0 (R212). -/
abbrev accumulator : RegOrFlag := .reg .a

/-- A decoded operand (R210): a literal small integer or a register-or-flag name. -/
inductive Operand where
  | imm (n : Int)
  | reg (k : RegOrFlag)
deriving DecidableEq, Repr

/-- The instructions. `n` is an immediate, `k` a combined index's name; in the forms of two operands
the first operand comes first, as in the shape's name (R71). -/
inductive Instr where
  -- halt and character I/O (41_halt_io.md)
  | halt
  | getc
  | getcr (k : RegOrFlag)
  | putc
  | putci (n : Int)
  -- unary operations (42_unary.md)
  | not
  | notr (k : RegOrFlag)
  | neg
  | negr (k : RegOrFlag)
  | popcount
  | popcountr (k : RegOrFlag)
  | clz
  | clzr (k : RegOrFlag)
  -- binary arithmetic (43_arith.md)
  | add
  | addi (n : Int)
  | addr (k : RegOrFlag)
  | addrr (k1 k2 : RegOrFlag)
  | addir (n : Int) (k : RegOrFlag)
  | sub
  | subi (n : Int)
  | subr (k : RegOrFlag)
  | subrr (k1 k2 : RegOrFlag)
  | subir (n : Int) (k : RegOrFlag)
  | mul
  | muli (n : Int)
  | mulr (k : RegOrFlag)
  | mulrr (k1 k2 : RegOrFlag)
  | mulir (n : Int) (k : RegOrFlag)
  | div
  | divi (n : Int)
  | divr (k : RegOrFlag)
  | divrr (k1 k2 : RegOrFlag)
  | divir (n : Int) (k : RegOrFlag)
  | mod
  | modi (n : Int)
  | modr (k : RegOrFlag)
  | modrr (k1 k2 : RegOrFlag)
  | modir (n : Int) (k : RegOrFlag)
  -- bitwise operations and shifts (44_bitwise_shift.md)
  | or
  | ori (n : Int)
  | orr (k : RegOrFlag)
  | orrr (k1 k2 : RegOrFlag)
  | orir (n : Int) (k : RegOrFlag)
  | and
  | andi (n : Int)
  | andr (k : RegOrFlag)
  | andrr (k1 k2 : RegOrFlag)
  | andir (n : Int) (k : RegOrFlag)
  | xor
  | xori (n : Int)
  | xorr (k : RegOrFlag)
  | xorrr (k1 k2 : RegOrFlag)
  | xorir (n : Int) (k : RegOrFlag)
  | shl
  | shli (n : Int)
  | shlr (k : RegOrFlag)
  | shlrr (k1 k2 : RegOrFlag)
  | shlir (n : Int) (k : RegOrFlag)
  | shr
  | shri (n : Int)
  | shrr (k : RegOrFlag)
  | shrrr (k1 k2 : RegOrFlag)
  | shrir (n : Int) (k : RegOrFlag)
  -- store, load and move (45_memory_move.md)
  | storei (n : Int)
  | storer (k : RegOrFlag)
  | storeii (n1 n2 : Int)
  | storeri (k : RegOrFlag) (n : Int)
  | storerr (k1 k2 : RegOrFlag)
  | storeir (n : Int) (k : RegOrFlag)
  | loadi (n : Int)
  | loadr (k : RegOrFlag)
  | loadir (n : Int) (k : RegOrFlag)
  | loadrr (k1 k2 : RegOrFlag)
  | movi (n : Int)
  | movr (k : RegOrFlag)
  | movrr (k1 k2 : RegOrFlag)
  | movir (n : Int) (k : RegOrFlag)
  -- test and compare (46_flags.md)
  | testr (k : RegOrFlag)
  | cmpi (n : Int)
  | cmpr (k : RegOrFlag)
  -- jumps (47_control.md)
  | jmpi (n : Int)
  | jmpr (k : RegOrFlag)
  | joi (n : Int)
  | jnoi (n : Int)
  | jzi (n : Int)
  | jnzi (n : Int)
  | jpei (n : Int)
  | jpoi (n : Int)
  | jli (n : Int)
  | jlei (n : Int)
  | jgei (n : Int)
  | jazi (n : Int)
  -- stack (48_stack.md)
  | push
  | pushi (n : Int)
  | pushr (k : RegOrFlag)
  | pop
  | popr (k : RegOrFlag)
  -- call and return (49_call_ret.md)
  | calli (n : Int)
  | callr (k : RegOrFlag)
  | ret
deriving DecidableEq, Repr

/-- The decoded operand list of an instruction, in shape order (R79). -/
def Instr.operands : Instr → List Operand
  | .halt => []
  | .getc => []
  | .getcr k => [.reg k]
  | .putc => []
  | .putci n => [.imm n]
  | .not => []
  | .notr k => [.reg k]
  | .neg => []
  | .negr k => [.reg k]
  | .popcount => []
  | .popcountr k => [.reg k]
  | .clz => []
  | .clzr k => [.reg k]
  | .add => []
  | .addi n => [.imm n]
  | .addr k => [.reg k]
  | .addrr k1 k2 => [.reg k1, .reg k2]
  | .addir n k => [.imm n, .reg k]
  | .sub => []
  | .subi n => [.imm n]
  | .subr k => [.reg k]
  | .subrr k1 k2 => [.reg k1, .reg k2]
  | .subir n k => [.imm n, .reg k]
  | .mul => []
  | .muli n => [.imm n]
  | .mulr k => [.reg k]
  | .mulrr k1 k2 => [.reg k1, .reg k2]
  | .mulir n k => [.imm n, .reg k]
  | .div => []
  | .divi n => [.imm n]
  | .divr k => [.reg k]
  | .divrr k1 k2 => [.reg k1, .reg k2]
  | .divir n k => [.imm n, .reg k]
  | .mod => []
  | .modi n => [.imm n]
  | .modr k => [.reg k]
  | .modrr k1 k2 => [.reg k1, .reg k2]
  | .modir n k => [.imm n, .reg k]
  | .or => []
  | .ori n => [.imm n]
  | .orr k => [.reg k]
  | .orrr k1 k2 => [.reg k1, .reg k2]
  | .orir n k => [.imm n, .reg k]
  | .and => []
  | .andi n => [.imm n]
  | .andr k => [.reg k]
  | .andrr k1 k2 => [.reg k1, .reg k2]
  | .andir n k => [.imm n, .reg k]
  | .xor => []
  | .xori n => [.imm n]
  | .xorr k => [.reg k]
  | .xorrr k1 k2 => [.reg k1, .reg k2]
  | .xorir n k => [.imm n, .reg k]
  | .shl => []
  | .shli n => [.imm n]
  | .shlr k => [.reg k]
  | .shlrr k1 k2 => [.reg k1, .reg k2]
  | .shlir n k => [.imm n, .reg k]
  | .shr => []
  | .shri n => [.imm n]
  | .shrr k => [.reg k]
  | .shrrr k1 k2 => [.reg k1, .reg k2]
  | .shrir n k => [.imm n, .reg k]
  | .storei n => [.imm n]
  | .storer k => [.reg k]
  | .storeii n1 n2 => [.imm n1, .imm n2]
  | .storeri k n => [.reg k, .imm n]
  | .storerr k1 k2 => [.reg k1, .reg k2]
  | .storeir n k => [.imm n, .reg k]
  | .loadi n => [.imm n]
  | .loadr k => [.reg k]
  | .loadir n k => [.imm n, .reg k]
  | .loadrr k1 k2 => [.reg k1, .reg k2]
  | .movi n => [.imm n]
  | .movr k => [.reg k]
  | .movrr k1 k2 => [.reg k1, .reg k2]
  | .movir n k => [.imm n, .reg k]
  | .testr k => [.reg k]
  | .cmpi n => [.imm n]
  | .cmpr k => [.reg k]
  | .jmpi n => [.imm n]
  | .jmpr k => [.reg k]
  | .joi n => [.imm n]
  | .jnoi n => [.imm n]
  | .jzi n => [.imm n]
  | .jnzi n => [.imm n]
  | .jpei n => [.imm n]
  | .jpoi n => [.imm n]
  | .jli n => [.imm n]
  | .jlei n => [.imm n]
  | .jgei n => [.imm n]
  | .jazi n => [.imm n]
  | .push => []
  | .pushi n => [.imm n]
  | .pushr k => [.reg k]
  | .pop => []
  | .popr k => [.reg k]
  | .calli n => [.imm n]
  | .callr k => [.reg k]
  | .ret => []

end Sys2Proof
end

