-- ==== Sys2Proof/WellFormed.lean ====
section
/-! DEFINITION. Which instructions the encoding can hold: every immediate in -128..127 (R72, R79).
Register operands are names, so an index without a name cannot be written. -/

namespace Sys2Proof

/-- An operand the encoding can hold (R72, R79). -/
def Operand.wellFormed : Operand → Bool
  | .imm n => decide (-128 ≤ n) && decide (n ≤ 127)
  | .reg _ => true

/-- An instruction the encoding can hold: all its operands are. -/
def Instr.wellFormed (i : Instr) : Bool :=
  i.operands.all Operand.wellFormed

end Sys2Proof
end

