-- ==== Sys2Proof/Decode.lean ====
section
/-! DEFINITION. The decoder (spec/30_encoding.md R70 to R83), total on any bytes and refusing by name,
and the encoder, both from the opcode map of R76. -/

namespace Sys2Proof

/-- The combined index 0..11 of a name (R20, R27). -/
def RegOrFlag.index : RegOrFlag → Nat
  | .reg .a => 0 | .reg .b => 1 | .reg .c => 2 | .reg .d => 3
  | .reg .ip => 4 | .reg .sb => 5 | .reg .sp => 6
  | .flag .cf => 7 | .flag .pf => 8 | .flag .zf => 9 | .flag .sf => 10 | .flag .of => 11

/-- The name at a combined index; an index of 12 or more names nothing (R73, R81). -/
def RegOrFlag.ofIndex : Nat → Option RegOrFlag
  | 0 => some (.reg .a) | 1 => some (.reg .b) | 2 => some (.reg .c) | 3 => some (.reg .d)
  | 4 => some (.reg .ip) | 5 => some (.reg .sb) | 6 => some (.reg .sp)
  | 7 => some (.flag .cf) | 8 => some (.flag .pf) | 9 => some (.flag .zf)
  | 10 => some (.flag .sf) | 11 => some (.flag .of)
  | _ => none

/-- What the decoder answers for the bytes it is given (R78 to R81). -/
inductive Decoded where
  /-- a complete instruction -/
  | instr (i : Instr)
  /-- the number of bytes after the opcode is not the opcode's operand length (R78) -/
  | incomplete
  /-- the first byte, 100..255, indexes no entry of the table (R80) -/
  | illegalOpcode (op : Byte)
  /-- an operand byte or nibble, 12 or more, names no register and no flag (R81) -/
  | badRegisterIndex
deriving DecidableEq, Repr

/-- A row of the opcode map: its operand shape (R71), and the instruction its operands give. -/
inductive Row where
  | none (i : Instr)
  | i (f : Int → Instr)
  | r (f : RegOrFlag → Instr)
  | ii (f : Int → Int → Instr)
  | ir (f : Int → RegOrFlag → Instr)
  | ri (f : RegOrFlag → Int → Instr)
  | rr (f : RegOrFlag → RegOrFlag → Instr)

/-- The number of operand bytes of a shape: 1 for `rr`, else the number of operands (R71). -/
def Row.operandBytes : Row → Nat
  | .none _ => 0
  | .i _ => 1
  | .r _ => 1
  | .ii _ => 2
  | .ir _ => 2
  | .ri _ => 2
  | .rr _ => 1

/-- The opcode map of R76: the row of an opcode, nothing from 100 up (R80). -/
def rowOf : Nat → Option Row
  -- halt and character I/O (41_halt_io.md)
  | 0 => some (.none .halt)
  | 1 => some (.none .getc)
  | 2 => some (.r .getcr)
  | 3 => some (.none .putc)
  | 4 => some (.i .putci)
  -- unary operations (42_unary.md)
  | 5 => some (.none .not)
  | 6 => some (.r .notr)
  | 7 => some (.none .neg)
  | 8 => some (.r .negr)
  | 9 => some (.none .popcount)
  | 10 => some (.r .popcountr)
  | 11 => some (.none .clz)
  | 12 => some (.r .clzr)
  -- binary arithmetic (43_arith.md)
  | 13 => some (.none .add)
  | 14 => some (.i .addi)
  | 15 => some (.r .addr)
  | 16 => some (.rr .addrr)
  | 17 => some (.ir .addir)
  | 18 => some (.none .sub)
  | 19 => some (.i .subi)
  | 20 => some (.r .subr)
  | 21 => some (.rr .subrr)
  | 22 => some (.ir .subir)
  | 23 => some (.none .mul)
  | 24 => some (.i .muli)
  | 25 => some (.r .mulr)
  | 26 => some (.rr .mulrr)
  | 27 => some (.ir .mulir)
  | 28 => some (.none .div)
  | 29 => some (.i .divi)
  | 30 => some (.r .divr)
  | 31 => some (.rr .divrr)
  | 32 => some (.ir .divir)
  | 33 => some (.none .mod)
  | 34 => some (.i .modi)
  | 35 => some (.r .modr)
  | 36 => some (.rr .modrr)
  | 37 => some (.ir .modir)
  -- bitwise operations and shifts (44_bitwise_shift.md)
  | 38 => some (.none .or)
  | 39 => some (.i .ori)
  | 40 => some (.r .orr)
  | 41 => some (.rr .orrr)
  | 42 => some (.ir .orir)
  | 43 => some (.none .and)
  | 44 => some (.i .andi)
  | 45 => some (.r .andr)
  | 46 => some (.rr .andrr)
  | 47 => some (.ir .andir)
  | 48 => some (.none .xor)
  | 49 => some (.i .xori)
  | 50 => some (.r .xorr)
  | 51 => some (.rr .xorrr)
  | 52 => some (.ir .xorir)
  | 53 => some (.none .shl)
  | 54 => some (.i .shli)
  | 55 => some (.r .shlr)
  | 56 => some (.rr .shlrr)
  | 57 => some (.ir .shlir)
  | 58 => some (.none .shr)
  | 59 => some (.i .shri)
  | 60 => some (.r .shrr)
  | 61 => some (.rr .shrrr)
  | 62 => some (.ir .shrir)
  -- store, load and move (45_memory_move.md)
  | 63 => some (.i .storei)
  | 64 => some (.r .storer)
  | 65 => some (.ii .storeii)
  | 66 => some (.ri .storeri)
  | 67 => some (.rr .storerr)
  | 68 => some (.ir .storeir)
  | 69 => some (.i .loadi)
  | 70 => some (.r .loadr)
  | 71 => some (.ir .loadir)
  | 72 => some (.rr .loadrr)
  | 73 => some (.i .movi)
  | 74 => some (.r .movr)
  | 75 => some (.rr .movrr)
  | 76 => some (.ir .movir)
  -- test and compare (46_flags.md)
  | 77 => some (.r .testr)
  | 78 => some (.i .cmpi)
  | 79 => some (.r .cmpr)
  -- jumps (47_control.md)
  | 80 => some (.i .jmpi)
  | 81 => some (.r .jmpr)
  | 82 => some (.i .joi)
  | 83 => some (.i .jnoi)
  | 84 => some (.i .jzi)
  | 85 => some (.i .jnzi)
  | 86 => some (.i .jpei)
  | 87 => some (.i .jpoi)
  | 88 => some (.i .jli)
  | 89 => some (.i .jlei)
  | 90 => some (.i .jgei)
  | 91 => some (.i .jazi)
  -- stack (48_stack.md)
  | 92 => some (.none .push)
  | 93 => some (.i .pushi)
  | 94 => some (.r .pushr)
  | 95 => some (.none .pop)
  | 96 => some (.r .popr)
  -- call and return (49_call_ret.md)
  | 97 => some (.i .calli)
  | 98 => some (.r .callr)
  | 99 => some (.none .ret)
  | _ => none

/-- A register operand byte, decoded (R73), handed on; a bad index is refused (R81). -/
def withName (index : Nat) (f : RegOrFlag → Decoded) : Decoded :=
  match RegOrFlag.ofIndex index with
  | some k => f k
  | none => .badRegisterIndex

/-- The first operand's index in a packed byte: bits 7:4 (R74). -/
def highNibble (b : Byte) : Nat := b.toNat / 16

/-- The second operand's index in a packed byte: bits 3:0 (R74). -/
def lowNibble (b : Byte) : Nat := b.toNat % 16

/-- Decode the operand bytes of a row by its shape (R72 to R74, R79). A number of bytes other than the
shape's is "incomplete" (R78). -/
def Row.decode : Row → List Byte → Decoded
  | .none inst, [] => .instr inst
  | .i f, [x] => .instr (f (sint x))
  | .r f, [x] => withName (uint x) fun k => .instr (f k)
  | .ii f, [x, y] => .instr (f (sint x) (sint y))
  | .ir f, [x, y] => withName (uint y) fun k => .instr (f (sint x) k)
  | .ri f, [x, y] => withName (uint x) fun k => .instr (f k (sint y))
  | .rr f, [x] => withName (highNibble x) fun k1 => withName (lowNibble x) fun k2 => .instr (f k1 k2)
  | _, _ => .incomplete

/-- Decode an instruction buffer (R78, R202): the first byte is the opcode, looked up first; the rest
must be exactly its operand bytes. -/
def decodeInstruction : List Byte → Decoded
  | [] => .incomplete
  | op :: operands =>
    match rowOf (uint op) with
    | none => .illegalOpcode op
    | some row => row.decode operands

/-- The number of operand bytes of an opcode (R70, R71). -/
def operandLength (op : Byte) : Option Nat :=
  (rowOf (uint op)).map Row.operandBytes

/-- Decode the instruction at the head of a byte string: read the opcode, look up its length and take
that many bytes (R78, last sentence). -/
def decodePrefix : List Byte → Decoded
  | [] => .incomplete
  | op :: rest => decodeInstruction (op :: rest.take ((operandLength op).getD 0))

/-- Byte `j` of an instruction whose bits are `w`, the first byte in bits 7:0. -/
def tableByte (nbits w j : Nat) : Byte :=
  BitVec.ofNat 8 (w % 2 ^ nbits / 256 ^ j)

/-- An instruction's bits laid out in memory order, up to the longest instruction (R54, R71). -/
def tableBytes (nbits w : Nat) : List Byte :=
  [tableByte nbits w 0, tableByte nbits w 1, tableByte nbits w 2]

/-- The instruction the decoder reads from an instruction whose bits are `w`. -/
def decodeTableWord (nbits w : Nat) : Option Instr :=
  match decodePrefix (tableBytes nbits w) with
  | .instr i => some i
  | _ => none

/-- The operand byte of a name: its combined index (R73). -/
def RegOrFlag.indexByte (k : RegOrFlag) : Byte :=
  BitVec.ofNat 8 k.index

/-- The packed byte of two names: `k1<<4 | k2` (R74). -/
def packByte (k1 k2 : RegOrFlag) : Byte :=
  (k1.indexByte <<< 4) ||| k2.indexByte

/-- The bytes of an instruction (R70 to R76): the opcode, then the operand bytes in shape order. -/
def encode : Instr → List Byte
  | .halt => [0]
  | .getc => [1]
  | .getcr k => [2, k.indexByte]
  | .putc => [3]
  | .putci n => [4, wrap8 n]
  | .not => [5]
  | .notr k => [6, k.indexByte]
  | .neg => [7]
  | .negr k => [8, k.indexByte]
  | .popcount => [9]
  | .popcountr k => [10, k.indexByte]
  | .clz => [11]
  | .clzr k => [12, k.indexByte]
  | .add => [13]
  | .addi n => [14, wrap8 n]
  | .addr k => [15, k.indexByte]
  | .addrr k1 k2 => [16, packByte k1 k2]
  | .addir n k => [17, wrap8 n, k.indexByte]
  | .sub => [18]
  | .subi n => [19, wrap8 n]
  | .subr k => [20, k.indexByte]
  | .subrr k1 k2 => [21, packByte k1 k2]
  | .subir n k => [22, wrap8 n, k.indexByte]
  | .mul => [23]
  | .muli n => [24, wrap8 n]
  | .mulr k => [25, k.indexByte]
  | .mulrr k1 k2 => [26, packByte k1 k2]
  | .mulir n k => [27, wrap8 n, k.indexByte]
  | .div => [28]
  | .divi n => [29, wrap8 n]
  | .divr k => [30, k.indexByte]
  | .divrr k1 k2 => [31, packByte k1 k2]
  | .divir n k => [32, wrap8 n, k.indexByte]
  | .mod => [33]
  | .modi n => [34, wrap8 n]
  | .modr k => [35, k.indexByte]
  | .modrr k1 k2 => [36, packByte k1 k2]
  | .modir n k => [37, wrap8 n, k.indexByte]
  | .or => [38]
  | .ori n => [39, wrap8 n]
  | .orr k => [40, k.indexByte]
  | .orrr k1 k2 => [41, packByte k1 k2]
  | .orir n k => [42, wrap8 n, k.indexByte]
  | .and => [43]
  | .andi n => [44, wrap8 n]
  | .andr k => [45, k.indexByte]
  | .andrr k1 k2 => [46, packByte k1 k2]
  | .andir n k => [47, wrap8 n, k.indexByte]
  | .xor => [48]
  | .xori n => [49, wrap8 n]
  | .xorr k => [50, k.indexByte]
  | .xorrr k1 k2 => [51, packByte k1 k2]
  | .xorir n k => [52, wrap8 n, k.indexByte]
  | .shl => [53]
  | .shli n => [54, wrap8 n]
  | .shlr k => [55, k.indexByte]
  | .shlrr k1 k2 => [56, packByte k1 k2]
  | .shlir n k => [57, wrap8 n, k.indexByte]
  | .shr => [58]
  | .shri n => [59, wrap8 n]
  | .shrr k => [60, k.indexByte]
  | .shrrr k1 k2 => [61, packByte k1 k2]
  | .shrir n k => [62, wrap8 n, k.indexByte]
  | .storei n => [63, wrap8 n]
  | .storer k => [64, k.indexByte]
  | .storeii n1 n2 => [65, wrap8 n1, wrap8 n2]
  | .storeri k n => [66, k.indexByte, wrap8 n]
  | .storerr k1 k2 => [67, packByte k1 k2]
  | .storeir n k => [68, wrap8 n, k.indexByte]
  | .loadi n => [69, wrap8 n]
  | .loadr k => [70, k.indexByte]
  | .loadir n k => [71, wrap8 n, k.indexByte]
  | .loadrr k1 k2 => [72, packByte k1 k2]
  | .movi n => [73, wrap8 n]
  | .movr k => [74, k.indexByte]
  | .movrr k1 k2 => [75, packByte k1 k2]
  | .movir n k => [76, wrap8 n, k.indexByte]
  | .testr k => [77, k.indexByte]
  | .cmpi n => [78, wrap8 n]
  | .cmpr k => [79, k.indexByte]
  | .jmpi n => [80, wrap8 n]
  | .jmpr k => [81, k.indexByte]
  | .joi n => [82, wrap8 n]
  | .jnoi n => [83, wrap8 n]
  | .jzi n => [84, wrap8 n]
  | .jnzi n => [85, wrap8 n]
  | .jpei n => [86, wrap8 n]
  | .jpoi n => [87, wrap8 n]
  | .jli n => [88, wrap8 n]
  | .jlei n => [89, wrap8 n]
  | .jgei n => [90, wrap8 n]
  | .jazi n => [91, wrap8 n]
  | .push => [92]
  | .pushi n => [93, wrap8 n]
  | .pushr k => [94, k.indexByte]
  | .pop => [95]
  | .popr k => [96, k.indexByte]
  | .calli n => [97, wrap8 n]
  | .callr k => [98, k.indexByte]
  | .ret => [99]

end Sys2Proof
end

