-- ==== Sys2Proof/Machine/State.lean ====
section
/-! DEFINITION. The state of the machine (spec/10_state.md), the reasons a run ends, and reset. -/

namespace Sys2Proof.Machine

/-- The five faults of the machine with their recorded values (60_exceptions.md R230). A fault is part
of the state: it is the value `run` takes (R231). The spec's codes 1 to 5 are labels (U20); the order
here is theirs. -/
inductive FaultCause where
  /-- code 1: the byte read as an opcode, 100..255 (R232) -/
  | illegalOpcode (op : Byte)
  /-- code 2: an operand names no register and no flag (R233) -/
  | badRegisterIndex
  /-- code 3: the opcode, 97, 98 or 99, has no implementation (R234) -/
  | unimplemented (op : Byte)
  /-- code 4: the source of a division or modulo is 0 (R235) -/
  | divideByZero
  /-- code 5: the source of a shift is negative (R236) -/
  | negativeShiftCount
deriving DecidableEq, Repr

/-- The run state (10_state.md R34). -/
inductive Run where
  | running
  | halted
  | faulted (cause : FaultCause)
deriving DecidableEq, Repr

/-- Memory: (address, byte) pairs, addresses strictly rising, no entry equal to what an unlisted
address reads as (`Memory.wf` of Ops.lean says so). -/
abbrev Memory := List Host.Cell

/-- The state of the machine: 10_state.md R20 to R42. -/
structure State where
  /-- general register `a`, the accumulator (R20) -/
  a : Byte
  /-- general register `b` (R20) -/
  b : Byte
  /-- general register `c` (R20) -/
  c : Byte
  /-- general register `d` (R20) -/
  d : Byte
  /-- instruction pointer (R24, R25) -/
  ip : Byte
  /-- stack base, used by nothing implicitly (R22) -/
  sb : Byte
  /-- stack pointer (R26) -/
  sp : Byte
  /-- carry flag, computed by no operation (R27, R28) -/
  cf : Bool
  /-- parity flag (R27) -/
  pf : Bool
  /-- zero flag (R27) -/
  zf : Bool
  /-- sign flag (R27) -/
  sf : Bool
  /-- overflow flag, computed by no operation (R27, R28) -/
  of : Bool
  /-- the 256 memory cells (20_memory.md R50) -/
  mem : Memory
  /-- the run state (R34) -/
  run : Run
  /-- the instruction buffer: the bytes fetched so far for the instruction being recognised (R35) -/
  buf : List Byte
  /-- the bytes the input channel still has to deliver (R38) -/
  input : List Byte
  /-- the bytes the output channel was given (R39) -/
  output : List Byte
  /-- the MODEL's own field: how many free values were drawn (log entry 1) -/
  freeCount : Nat
deriving DecidableEq, Repr

/-- Why a step has no answer. No instruction's meaning raises one: the five faults of the machine are
next states whose `run` is `faulted` (R231). -/
inductive Fault where
  /-- Raised by `step` alone, never by a meaning: the instruction buffer is still no instruction after
  as many fetches as the longest instruction has bytes. The decoder calls such a buffer incomplete
  (R78) and the engine would accumulate for ever: a stuck state. It occurs only from a state whose
  buffer is not empty and no instruction, which no run reaches. Safe. Log entry 4. -/
  | neverDecodes
deriving DecidableEq, Repr

/-- Why an instruction has no meaning here. -/
inductive Refusal where
  /-- Raised by an arm of `exec` for an instruction not modelled yet; every instruction is modelled, so
  no arm raises it. Safe. -/
  | notModelled (mnemonic : String)
deriving DecidableEq, Repr

/-- The machine right after reset (R41) with the empty image loaded and no input to deliver (log
entry 2): registers 0, flags false, buffer and channels empty, every memory cell 0. -/
def State.reset : State where
  a := 0
  b := 0
  c := 0
  d := 0
  ip := Config.entry
  sb := 0
  sp := 0
  cf := false
  pf := false
  zf := false
  sf := false
  of := false
  mem := []
  run := .running
  buf := []
  input := []
  output := []
  freeCount := 0

end Sys2Proof.Machine
end

