-- ==== Sys2Proof/Machine/Alu.lean ====
section
/-! DEFINITION. The arithmetic laws (spec/40_engine_and_operands.md R214, R219 to R222) as functions on
integers. A binary operation takes the destination's value `d` first and the source's value `s` second
(R213), and answers the value to write or the fault it raises. -/

namespace Sys2Proof.Machine

/-- `not` (R221): the bitwise complement, in the signed view `-s - 1`. -/
def aluNot (s : Int) : Int := -s - 1

/-- `neg` (R107, R214). -/
def aluNeg (s : Int) : Int := norm8 (-s)

/-- `popcount` (R222). -/
def aluPopcount (s : Int) : Int := popcount8 s

/-- `clz` (R222). -/
def aluClz (s : Int) : Int := clz8 s

/-- `add` (R113, R214). -/
def aluAdd (d s : Int) : Except FaultCause Int := .ok (norm8 (d + s))

/-- `sub` (R118, R214): destination minus source. -/
def aluSub (d s : Int) : Except FaultCause Int := .ok (norm8 (d - s))

/-- `mul` (R123, R214). -/
def aluMul (d s : Int) : Except FaultCause Int := .ok (norm8 (d * s))

/-- `div` (R219): the floored quotient; a zero source faults (R235). -/
def aluDiv (d s : Int) : Except FaultCause Int :=
  if s = 0 then .error .divideByZero else .ok (norm8 (Int.fdiv d s))

/-- `mod` (R219): the floored remainder; a zero source faults (R235). -/
def aluMod (d s : Int) : Except FaultCause Int :=
  if s = 0 then .error .divideByZero else .ok (norm8 (Int.fmod d s))

/-- `or` (R221). -/
def aluOr (d s : Int) : Except FaultCause Int := .ok (sint (wrap8 d ||| wrap8 s))

/-- `and` (R221). -/
def aluAnd (d s : Int) : Except FaultCause Int := .ok (sint (wrap8 d &&& wrap8 s))

/-- `xor` (R221). -/
def aluXor (d s : Int) : Except FaultCause Int := .ok (sint (wrap8 d ^^^ wrap8 s))

/-- `shl` (R220): the low 8 bits of `d * 2^s`; a negative count faults (R236). -/
def aluShl (d s : Int) : Except FaultCause Int :=
  if s < 0 then .error .negativeShiftCount else .ok (norm8 (d * 2 ^ s.toNat))

/-- `shr` (R220): the arithmetic shift `d div 2^s`; a negative count faults (R236). -/
def aluShr (d s : Int) : Except FaultCause Int :=
  if s < 0 then .error .negativeShiftCount else .ok (Int.fdiv d (2 ^ s.toNat))

end Sys2Proof.Machine
end

