-- ==== Sys2Proof/Machine/Ops.lean ====
section
/-! DEFINITION. The named operations over registers, flags, memory and the channels; raising a fault,
ending a run, and completing an instruction (spec/10_state.md, 20_memory.md, 60_exceptions.md). -/

namespace Sys2Proof.Machine

/-- What an instruction's meaning answers. -/
abbrev Result := Host.Outcome State Fault Refusal

/-! ### Registers and flags -/

/-- The cell a register holds (R20). -/
def State.getReg (s : State) : Reg → Byte
  | .a => s.a
  | .b => s.b
  | .c => s.c
  | .d => s.d
  | .ip => s.ip
  | .sb => s.sb
  | .sp => s.sp

/-- Write a cell to a register; all seven are writable (R22). -/
def State.setReg (s : State) (r : Reg) (v : Byte) : State :=
  match r with
  | .a => { s with a := v }
  | .b => { s with b := v }
  | .c => { s with c := v }
  | .d => { s with d := v }
  | .ip => { s with ip := v }
  | .sb => { s with sb := v }
  | .sp => { s with sp := v }

/-- The boolean a flag holds (R27). -/
def State.getFlag (s : State) : Flag → Bool
  | .cf => s.cf
  | .pf => s.pf
  | .zf => s.zf
  | .sf => s.sf
  | .of => s.of

/-- Write a boolean to a flag (R30). -/
def State.setFlag (s : State) (f : Flag) (v : Bool) : State :=
  match f with
  | .cf => { s with cf := v }
  | .pf => { s with pf := v }
  | .zf => { s with zf := v }
  | .sf => { s with sf := v }
  | .of => { s with of := v }

/-! ### Memory -/

/-- What an address that the list does not hold reads as: a fresh memory is all zero (R264). -/
def Memory.unlisted : Byte := 0

/-- The byte at an address given as a number. -/
def Memory.readAt : Memory → Nat → Byte
  | [], _ => Memory.unlisted
  | (key, v) :: rest, a => if key = a then v else Memory.readAt rest a

/-- `MemRead(addr, 1)` (R52). -/
def Memory.read (m : Memory) (a : Addr) : Byte :=
  Memory.readAt m a.toNat

/-- The memory without any entry for an address. -/
def Memory.erase (m : Memory) (a : Nat) : Memory :=
  m.filter fun cell => cell.1 != a

/-- Put an entry in its place by address. -/
def Memory.insert (a : Nat) (v : Byte) : Memory → Memory
  | [] => [(a, v)]
  | cell :: rest => if a < cell.1 then (a, v) :: cell :: rest else cell :: Memory.insert a v rest

/-- `MemWrite(addr, 1, c)` (R53), keeping the canonical form. -/
def Memory.write (m : Memory) (a : Addr) (v : Byte) : Memory :=
  if v = Memory.unlisted then Memory.erase m a.toNat
  else Memory.insert a.toNat v (Memory.erase m a.toNat)

/-- The entries are for addresses from `low` up, strictly rising, inside memory (R50), and none equals
what an unlisted address reads as. -/
def Memory.wfFrom (low : Nat) : Memory → Bool
  | [] => true
  | (a, v) :: rest =>
    decide (low ≤ a) && decide (a < Config.memSize) && decide (v ≠ Memory.unlisted) &&
      Memory.wfFrom (a + 1) rest

/-- The canonical form of memory. -/
def Memory.wf (m : Memory) : Bool :=
  Memory.wfFrom 0 m

/-- Store a cell at an address (R53). -/
def State.store (s : State) (a : Addr) (v : Byte) : State :=
  { s with mem := s.mem.write a v }

/-! ### The end of a run -/

/-- End the run: registers, flags, memory and channels stay (R100, R231). The buffer's content is left
open (U17): a free value of at most three cells (R35), log entry 1. -/
def State.endRun (s : State) (how : Run) : State :=
  { s with
    run := how
    buf := (Config.bufferAfterEnd s.freeCount).take Config.maxIlen
    freeCount := s.freeCount + 1 }

/-- `raise <Fault>(info)` (60_exceptions.md R231): the run is FAULTED and nothing else changes. `ip`
stays where fetching stopped (R238). There is no handler, no saved state and no return (R239, R240). -/
def raise (cause : FaultCause) (s : State) : Result :=
  .next (s.endRun (.faulted cause))

/-! ### Completing an instruction -/

/-- The engine's end of an instruction (40_engine_and_operands.md R204, R205): the buffer is cleared,
and `ip` advances by 1 unless the operation left a different value in it. `before` is the state the
operation began in, `after` the state it left. -/
def State.retire (before after : State) : State :=
  { after with
    buf := []
    ip := if after.ip = before.ip then before.ip + 1 else after.ip }

/-- The operation is done: answer the state after the engine's end of the instruction. -/
def complete (before after : State) : Result :=
  .next (before.retire after)

end Sys2Proof.Machine
end

