-- ==== Sys2Proof/Machine/Operands.lean ====
section
/-! DEFINITION. Operands as values and destinations (spec/10_state.md R31, R32;
40_engine_and_operands.md R210 to R213, R223). -/

namespace Sys2Proof.Machine

/-- What a boolean flag reads as: 1 or 0 (R31). -/
def boolInt (v : Bool) : Int := if v then 1 else 0

/-- `rf_read(k)` (R31): a register's signed view, a flag's 0 or 1. -/
def rfRead (s : State) : RegOrFlag → Int
  | .reg r => sint (s.getReg r)
  | .flag f => boolInt (s.getFlag f)

/-- `rf_write(k, n)` (R32): a register receives the cell of `n`, a flag whether that cell is not 0. -/
def rfWrite (s : State) (k : RegOrFlag) (n : Int) : State :=
  match k with
  | .reg r => s.setReg r (wrap8 n)
  | .flag f => s.setFlag f (decide (wrap8 n ≠ 0))

/-- `val(o)` (R210): the integer value of a decoded operand. -/
def val (s : State) : Operand → Int
  | .imm n => n
  | .reg k => rfRead s k

/-- An operation that computes one value and writes it to one destination (R211: the value is computed
from the state the operation begins in). -/
def assign (k : RegOrFlag) (n : Int) (s : State) : Result :=
  complete s (rfWrite s k n)

/-- A unary operation (R212): its value of the source goes to the accumulator. -/
def unary (f : Int → Int) (source : Operand) (s : State) : Result :=
  assign accumulator (f (val s source)) s

/-- A binary operation (R212, R213): `D <- D op S`, or the fault the operation raises, before anything
is written. -/
def binary (f : Int → Int → Except FaultCause Int) (source : Operand) (destination : RegOrFlag)
    (s : State) : Result :=
  match f (rfRead s destination) (val s source) with
  | .ok n => assign destination n s
  | .error cause => raise cause s

end Sys2Proof.Machine
end

