-- ==== Sys2Proof/Machine/Arith.lean ====
section
/-! DEFINITION. Binary arithmetic (spec/43_arith.md R113 to R137), normalized (R214). `div` and `mod` fault on a
zero source (R235). -/

namespace Sys2Proof.Machine

/-- `add` (R113): `a <- a + a`. -/
def execAdd (s : State) : Result :=
  binary aluAdd (.reg accumulator) accumulator s

/-- `addi` (R114): `a <- a + n`. -/
def execAddi (n : Int) (s : State) : Result :=
  binary aluAdd (.imm n) accumulator s

/-- `addr` (R115): `a <- a + k`. -/
def execAddr (k : RegOrFlag) (s : State) : Result :=
  binary aluAdd (.reg k) accumulator s

/-- `addrr` (R116): `k2 <- k2 + k1`. -/
def execAddrr (k1 k2 : RegOrFlag) (s : State) : Result :=
  binary aluAdd (.reg k1) k2 s

/-- `addir` (R117): `k <- k + n`. -/
def execAddir (n : Int) (k : RegOrFlag) (s : State) : Result :=
  binary aluAdd (.imm n) k s

/-- `sub` (R118): `a <- a - a`. -/
def execSub (s : State) : Result :=
  binary aluSub (.reg accumulator) accumulator s

/-- `subi` (R119): `a <- a - n`. -/
def execSubi (n : Int) (s : State) : Result :=
  binary aluSub (.imm n) accumulator s

/-- `subr` (R120): `a <- a - k`. -/
def execSubr (k : RegOrFlag) (s : State) : Result :=
  binary aluSub (.reg k) accumulator s

/-- `subrr` (R121): `k2 <- k2 - k1`. -/
def execSubrr (k1 k2 : RegOrFlag) (s : State) : Result :=
  binary aluSub (.reg k1) k2 s

/-- `subir` (R122): `k <- k - n`. -/
def execSubir (n : Int) (k : RegOrFlag) (s : State) : Result :=
  binary aluSub (.imm n) k s

/-- `mul` (R123): `a <- a * a`. -/
def execMul (s : State) : Result :=
  binary aluMul (.reg accumulator) accumulator s

/-- `muli` (R124): `a <- a * n`. -/
def execMuli (n : Int) (s : State) : Result :=
  binary aluMul (.imm n) accumulator s

/-- `mulr` (R125): `a <- a * k`. -/
def execMulr (k : RegOrFlag) (s : State) : Result :=
  binary aluMul (.reg k) accumulator s

/-- `mulrr` (R126): `k2 <- k2 * k1`. -/
def execMulrr (k1 k2 : RegOrFlag) (s : State) : Result :=
  binary aluMul (.reg k1) k2 s

/-- `mulir` (R127): `k <- k * n`. -/
def execMulir (n : Int) (k : RegOrFlag) (s : State) : Result :=
  binary aluMul (.imm n) k s

/-- `div` (R128): `a <- a div a`. -/
def execDiv (s : State) : Result :=
  binary aluDiv (.reg accumulator) accumulator s

/-- `divi` (R129): `a <- a div n`. -/
def execDivi (n : Int) (s : State) : Result :=
  binary aluDiv (.imm n) accumulator s

/-- `divr` (R130): `a <- a div k`. -/
def execDivr (k : RegOrFlag) (s : State) : Result :=
  binary aluDiv (.reg k) accumulator s

/-- `divrr` (R131): `k2 <- k2 div k1`. -/
def execDivrr (k1 k2 : RegOrFlag) (s : State) : Result :=
  binary aluDiv (.reg k1) k2 s

/-- `divir` (R132): `k <- k div n`. -/
def execDivir (n : Int) (k : RegOrFlag) (s : State) : Result :=
  binary aluDiv (.imm n) k s

/-- `mod` (R133): `a <- a mod a`. -/
def execMod (s : State) : Result :=
  binary aluMod (.reg accumulator) accumulator s

/-- `modi` (R134): `a <- a mod n`. -/
def execModi (n : Int) (s : State) : Result :=
  binary aluMod (.imm n) accumulator s

/-- `modr` (R135): `a <- a mod k`. -/
def execModr (k : RegOrFlag) (s : State) : Result :=
  binary aluMod (.reg k) accumulator s

/-- `modrr` (R136): `k2 <- k2 mod k1`. -/
def execModrr (k1 k2 : RegOrFlag) (s : State) : Result :=
  binary aluMod (.reg k1) k2 s

/-- `modir` (R137): `k <- k mod n`. -/
def execModir (n : Int) (k : RegOrFlag) (s : State) : Result :=
  binary aluMod (.imm n) k s

end Sys2Proof.Machine
end

