-- ==== Sys2Proof/Machine/Bitwise.lean ====
section
/-! DEFINITION. Bitwise operations and shifts (spec/44_bitwise_shift.md R138 to R162). For a shift the source is
the count and the destination the value shifted; a negative count faults (R236). -/

namespace Sys2Proof.Machine

/-- `or` (R138): `a <- a or a`. -/
def execOr (s : State) : Result :=
  binary aluOr (.reg accumulator) accumulator s

/-- `ori` (R139): `a <- a or n`. -/
def execOri (n : Int) (s : State) : Result :=
  binary aluOr (.imm n) accumulator s

/-- `orr` (R140): `a <- a or k`. -/
def execOrr (k : RegOrFlag) (s : State) : Result :=
  binary aluOr (.reg k) accumulator s

/-- `orrr` (R141): `k2 <- k2 or k1`. -/
def execOrrr (k1 k2 : RegOrFlag) (s : State) : Result :=
  binary aluOr (.reg k1) k2 s

/-- `orir` (R142): `k <- k or n`. -/
def execOrir (n : Int) (k : RegOrFlag) (s : State) : Result :=
  binary aluOr (.imm n) k s

/-- `and` (R143): `a <- a and a`. -/
def execAnd (s : State) : Result :=
  binary aluAnd (.reg accumulator) accumulator s

/-- `andi` (R144): `a <- a and n`. -/
def execAndi (n : Int) (s : State) : Result :=
  binary aluAnd (.imm n) accumulator s

/-- `andr` (R145): `a <- a and k`. -/
def execAndr (k : RegOrFlag) (s : State) : Result :=
  binary aluAnd (.reg k) accumulator s

/-- `andrr` (R146): `k2 <- k2 and k1`. -/
def execAndrr (k1 k2 : RegOrFlag) (s : State) : Result :=
  binary aluAnd (.reg k1) k2 s

/-- `andir` (R147): `k <- k and n`. -/
def execAndir (n : Int) (k : RegOrFlag) (s : State) : Result :=
  binary aluAnd (.imm n) k s

/-- `xor` (R148): `a <- a xor a`. -/
def execXor (s : State) : Result :=
  binary aluXor (.reg accumulator) accumulator s

/-- `xori` (R149): `a <- a xor n`. -/
def execXori (n : Int) (s : State) : Result :=
  binary aluXor (.imm n) accumulator s

/-- `xorr` (R150): `a <- a xor k`. -/
def execXorr (k : RegOrFlag) (s : State) : Result :=
  binary aluXor (.reg k) accumulator s

/-- `xorrr` (R151): `k2 <- k2 xor k1`. -/
def execXorrr (k1 k2 : RegOrFlag) (s : State) : Result :=
  binary aluXor (.reg k1) k2 s

/-- `xorir` (R152): `k <- k xor n`. -/
def execXorir (n : Int) (k : RegOrFlag) (s : State) : Result :=
  binary aluXor (.imm n) k s

/-- `shl` (R153): `a <- a shl a`. -/
def execShl (s : State) : Result :=
  binary aluShl (.reg accumulator) accumulator s

/-- `shli` (R154): `a <- a shl n`. -/
def execShli (n : Int) (s : State) : Result :=
  binary aluShl (.imm n) accumulator s

/-- `shlr` (R155): `a <- a shl k`. -/
def execShlr (k : RegOrFlag) (s : State) : Result :=
  binary aluShl (.reg k) accumulator s

/-- `shlrr` (R156): `k2 <- k2 shl k1`. -/
def execShlrr (k1 k2 : RegOrFlag) (s : State) : Result :=
  binary aluShl (.reg k1) k2 s

/-- `shlir` (R157): `k <- k shl n`. -/
def execShlir (n : Int) (k : RegOrFlag) (s : State) : Result :=
  binary aluShl (.imm n) k s

/-- `shr` (R158): `a <- a shr a`. -/
def execShr (s : State) : Result :=
  binary aluShr (.reg accumulator) accumulator s

/-- `shri` (R159): `a <- a shr n`. -/
def execShri (n : Int) (s : State) : Result :=
  binary aluShr (.imm n) accumulator s

/-- `shrr` (R160): `a <- a shr k`. -/
def execShrr (k : RegOrFlag) (s : State) : Result :=
  binary aluShr (.reg k) accumulator s

/-- `shrrr` (R161): `k2 <- k2 shr k1`. -/
def execShrrr (k1 k2 : RegOrFlag) (s : State) : Result :=
  binary aluShr (.reg k1) k2 s

/-- `shrir` (R162): `k <- k shr n`. -/
def execShrir (n : Int) (k : RegOrFlag) (s : State) : Result :=
  binary aluShr (.imm n) k s

end Sys2Proof.Machine
end

