-- ==== Sys2Proof/Machine/CallRet.lean ====
section
/-! DEFINITION. Call and return (spec/49_call_ret.md R197 to R199): reserved, they raise Unimplemented (R234). The
operand is decoded and ignored. -/

namespace Sys2Proof.Machine

/-- `calli` (R197). -/
def execCalli (_n : Int) (s : State) : Result :=
  raise (.unimplemented 97) s

/-- `callr` (R198). -/
def execCallr (_k : RegOrFlag) (s : State) : Result :=
  raise (.unimplemented 98) s

/-- `ret` (R199). -/
def execRet (s : State) : Result :=
  raise (.unimplemented 99) s

end Sys2Proof.Machine
end

