-- ==== Sys2Proof/Machine/Flags.lean ====
section
/-! DEFINITION. The flag computation (spec/40_engine_and_operands.md R216, R217) and the predicates of
the conditional jumps (spec/47_control.md R182 to R191). -/

namespace Sys2Proof.Machine

/-- The parity of an integer: an even number of 1 bits in its cell (R216). -/
def evenParity (n : Int) : Bool :=
  popcount8 n % 2 == 0

/-- `settest(n)` (R216): zero and sign of the integer itself, parity of its cell; `cf` and `of` stay. -/
def settest (n : Int) (s : State) : State :=
  { s with
    zf := decide (n = 0)
    sf := decide (n < 0)
    pf := evenParity n }

/-- "overflow": `of` (R182). -/
def overflow (s : State) : Bool := s.of

/-- "not-overflow": `not of` (R183). -/
def notOverflow (s : State) : Bool := !s.of

/-- "zero": `zf` (R184). -/
def zero (s : State) : Bool := s.zf

/-- "not-zero": `not zf` (R185). -/
def notZero (s : State) : Bool := !s.zf

/-- "parity-even": `pf` (R186). -/
def parityEven (s : State) : Bool := s.pf

/-- "parity-odd": `not pf` (R187). -/
def parityOdd (s : State) : Bool := !s.pf

/-- "less": `sf` (R188). -/
def less (s : State) : Bool := s.sf

/-- "less-or-equal": `sf or zf` (R189). -/
def lessOrEqual (s : State) : Bool := s.sf || s.zf

/-- "greater-or-equal": `not sf` (R190). -/
def greaterOrEqual (s : State) : Bool := !s.sf

/-- "accumulator-zero": the accumulator's cell is 0 (R191). -/
def accumulatorZero (s : State) : Bool := decide (s.a = 0)

end Sys2Proof.Machine
end

