-- ==== Sys2Proof/Machine/Compare.lean ====
section
/-! DEFINITION. Test and compare (spec/46_flags.md R177 to R179), the only opcodes that compute flags (R217). The
value tested is read before the flags are rewritten, and a difference is not normalized. -/

namespace Sys2Proof.Machine

/-- `testr` (R177): test the value of `k`. -/
def execTestr (k : RegOrFlag) (s : State) : Result :=
  complete s (settest (rfRead s k) s)

/-- `cmpi` (R178): test `a - n`. -/
def execCmpi (n : Int) (s : State) : Result :=
  complete s (settest (rfRead s accumulator - n) s)

/-- `cmpr` (R179): test `a - k`. -/
def execCmpr (k : RegOrFlag) (s : State) : Result :=
  complete s (settest (rfRead s accumulator - rfRead s k) s)

end Sys2Proof.Machine
end

