-- ==== Sys2Proof/Machine/IO.lean ====
section
/-! DEFINITION. Halt and character input and output (spec/41_halt_io.md R100 to R104). -/

namespace Sys2Proof.Machine

/-- Read one input byte into a name (R101, R102). With no byte to deliver the instruction waits: it
does not complete and nothing changes (60_exceptions.md R244), so the answer is the same state, whose
buffer still holds the instruction. -/
def getInto (k : RegOrFlag) (s : State) : Result :=
  match s.input with
  | [] => .next s
  | v :: rest => complete s (rfWrite { s with input := rest } k (uint v))

/-- Append one byte to the output (R39). -/
def putByte (v : Byte) (s : State) : Result :=
  complete s { s with output := s.output ++ [v] }

/-- `halt` (R100): the run is HALTED; `ip` stays at the `halt` byte (R203, R242). -/
def execHalt (s : State) : Result :=
  .next (s.endRun .halted)

/-- `getc` (R101): one input byte into the accumulator. -/
def execGetc (s : State) : Result :=
  getInto accumulator s

/-- `getcr` (R102): one input byte into `k`. -/
def execGetcr (k : RegOrFlag) (s : State) : Result :=
  getInto k s

/-- `putc` (R103): the accumulator to the output. -/
def execPutc (s : State) : Result :=
  putByte s.a s

/-- `putci` (R104): the immediate byte to the output. -/
def execPutci (n : Int) (s : State) : Result :=
  putByte (wrap8 n) s

end Sys2Proof.Machine
end

