-- ==== Sys2Proof/Machine/Jump.lean ====
section
/-! DEFINITION. Jumps (spec/47_control.md R180 to R191). A target is absolute, its value modulo 256 (R218). A jump
to the address of its own last byte falls through (R205, R272). -/

namespace Sys2Proof.Machine

/-- `pc <- n mod 256` (R180, R181). -/
def jumpTo (n : Int) (s : State) : Result :=
  complete s { s with ip := wrap8 n }

/-- A conditional jump: nothing is written when the predicate is false (R205). -/
def jumpIf (predicate : Bool) (n : Int) (s : State) : Result :=
  if predicate then jumpTo n s else complete s s

/-- `jmpi` (R180): jump to `n`. -/
def execJmpi (n : Int) (s : State) : Result :=
  jumpTo n s

/-- `jmpr` (R181): jump to the address `k` holds. -/
def execJmpr (k : RegOrFlag) (s : State) : Result :=
  jumpTo (rfRead s k) s

/-- `joi` (R182): jump to `n` if `of`. -/
def execJoi (n : Int) (s : State) : Result :=
  jumpIf (overflow s) n s

/-- `jnoi` (R183): jump to `n` if not `of`. -/
def execJnoi (n : Int) (s : State) : Result :=
  jumpIf (notOverflow s) n s

/-- `jzi` (R184): jump to `n` if `zf`. -/
def execJzi (n : Int) (s : State) : Result :=
  jumpIf (zero s) n s

/-- `jnzi` (R185): jump to `n` if not `zf`. -/
def execJnzi (n : Int) (s : State) : Result :=
  jumpIf (notZero s) n s

/-- `jpei` (R186): jump to `n` if `pf`. -/
def execJpei (n : Int) (s : State) : Result :=
  jumpIf (parityEven s) n s

/-- `jpoi` (R187): jump to `n` if not `pf`. -/
def execJpoi (n : Int) (s : State) : Result :=
  jumpIf (parityOdd s) n s

/-- `jli` (R188): jump to `n` if `sf`. -/
def execJli (n : Int) (s : State) : Result :=
  jumpIf (less s) n s

/-- `jlei` (R189): jump to `n` if `sf` or `zf`. -/
def execJlei (n : Int) (s : State) : Result :=
  jumpIf (lessOrEqual s) n s

/-- `jgei` (R190): jump to `n` if not `sf`. -/
def execJgei (n : Int) (s : State) : Result :=
  jumpIf (greaterOrEqual s) n s

/-- `jazi` (R191): jump to `n` if `a` is 0. -/
def execJazi (n : Int) (s : State) : Result :=
  jumpIf (accumulatorZero s) n s

end Sys2Proof.Machine
end

