-- ==== Sys2Proof/Machine/MemoryMove.lean ====
section
/-! DEFINITION. Store, load and move (spec/45_memory_move.md R163 to R176). The first operand of a store or a
load is the address, its value modulo 256 (R218). -/

namespace Sys2Proof.Machine

/-- Store a cell at the address an operand names (R53). -/
def storeAt (address : Operand) (v : Byte) (s : State) : Result :=
  complete s (s.store (addrOf (val s address)) v)

/-- Load the cell at the address an operand names into a name (R52, R32). -/
def loadInto (address : Operand) (k : RegOrFlag) (s : State) : Result :=
  assign k (uint (s.mem.read (addrOf (val s address)))) s

/-- `storei` (R163): the accumulator to the address `n`. -/
def execStorei (n : Int) (s : State) : Result :=
  storeAt (.imm n) s.a s

/-- `storer` (R164): the accumulator to the address `k` holds. -/
def execStorer (k : RegOrFlag) (s : State) : Result :=
  storeAt (.reg k) s.a s

/-- `storeii` (R165): the immediate `n2` to the address `n1`. -/
def execStoreii (n1 n2 : Int) (s : State) : Result :=
  storeAt (.imm n1) (wrap8 n2) s

/-- `storeri` (R166): the immediate `n` to the address `k` holds. -/
def execStoreri (k : RegOrFlag) (n : Int) (s : State) : Result :=
  storeAt (.reg k) (wrap8 n) s

/-- `storerr` (R167): the value of `k2` to the address `k1` holds. -/
def execStorerr (k1 k2 : RegOrFlag) (s : State) : Result :=
  storeAt (.reg k1) (wrap8 (rfRead s k2)) s

/-- `storeir` (R168): the value of `k` to the address `n`. -/
def execStoreir (n : Int) (k : RegOrFlag) (s : State) : Result :=
  storeAt (.imm n) (wrap8 (rfRead s k)) s

/-- `loadi` (R169): the cell at the address `n` into the accumulator. -/
def execLoadi (n : Int) (s : State) : Result :=
  loadInto (.imm n) accumulator s

/-- `loadr` (R170): the cell at the address `k` holds into the accumulator. -/
def execLoadr (k : RegOrFlag) (s : State) : Result :=
  loadInto (.reg k) accumulator s

/-- `loadir` (R171): the cell at the address `n` into `k`. -/
def execLoadir (n : Int) (k : RegOrFlag) (s : State) : Result :=
  loadInto (.imm n) k s

/-- `loadrr` (R172): the cell at the address `k1` holds into `k2`. -/
def execLoadrr (k1 k2 : RegOrFlag) (s : State) : Result :=
  loadInto (.reg k1) k2 s

/-- `movi` (R173): the immediate into the accumulator. -/
def execMovi (n : Int) (s : State) : Result :=
  assign accumulator n s

/-- `movr` (R174): the value of `k` into the accumulator. -/
def execMovr (k : RegOrFlag) (s : State) : Result :=
  assign accumulator (rfRead s k) s

/-- `movrr` (R175): the value of `k1` into `k2`. -/
def execMovrr (k1 k2 : RegOrFlag) (s : State) : Result :=
  assign k2 (rfRead s k1) s

/-- `movir` (R176): the immediate into `k`. -/
def execMovir (n : Int) (k : RegOrFlag) (s : State) : Result :=
  assign k n s

end Sys2Proof.Machine
end

