-- ==== Sys2Proof/Machine/Stack.lean ====
section
/-! DEFINITION. The stack (spec/48_stack.md R192 to R196): full descending, `sp` wraps modulo 256 (R26). -/

namespace Sys2Proof.Machine

/-- Push a value that is already resolved: `sp` down by 1, then store at it (R192 to R194). -/
def pushValue (v : Byte) (s : State) : Result :=
  complete s ({ s with sp := s.sp - 1 }.store (s.sp - 1) v)

/-- Pop into a name (R195, R196): the destination is written first, then `sp` as it then stands goes up
by 1. -/
def popInto (k : RegOrFlag) (s : State) : Result :=
  let written := rfWrite s k (uint (s.mem.read s.sp))
  complete s { written with sp := written.sp + 1 }

/-- `push` (R192): push the accumulator. -/
def execPush (s : State) : Result :=
  pushValue s.a s

/-- `pushi` (R193): push the immediate. -/
def execPushi (n : Int) (s : State) : Result :=
  pushValue (wrap8 n) s

/-- `pushr` (R194): push the value of `k`, resolved before `sp` moves. -/
def execPushr (k : RegOrFlag) (s : State) : Result :=
  pushValue (wrap8 (rfRead s k)) s

/-- `pop` (R195): pop into the accumulator. -/
def execPop (s : State) : Result :=
  popInto accumulator s

/-- `popr` (R196): pop into `k`. -/
def execPopr (k : RegOrFlag) (s : State) : Result :=
  popInto k s

end Sys2Proof.Machine
end

