-- ==== Sys2Proof/Machine/Unary.lean ====
section
/-! DEFINITION. Unary operations (spec/42_unary.md R105 to R112). The destination is always the accumulator
(R212); the register form names only the source. -/

namespace Sys2Proof.Machine

/-- `not` (R105): the bitwise complement of `a` into `a`. -/
def execNot (s : State) : Result :=
  unary aluNot (.reg accumulator) s

/-- `notr` (R106): the bitwise complement of `k` into `a`. -/
def execNotr (k : RegOrFlag) (s : State) : Result :=
  unary aluNot (.reg k) s

/-- `neg` (R107): the arithmetic negation of `a` into `a`. -/
def execNeg (s : State) : Result :=
  unary aluNeg (.reg accumulator) s

/-- `negr` (R108): the arithmetic negation of `k` into `a`. -/
def execNegr (k : RegOrFlag) (s : State) : Result :=
  unary aluNeg (.reg k) s

/-- `popcount` (R109): the population count of `a` into `a`. -/
def execPopcount (s : State) : Result :=
  unary aluPopcount (.reg accumulator) s

/-- `popcountr` (R110): the population count of `k` into `a`. -/
def execPopcountr (k : RegOrFlag) (s : State) : Result :=
  unary aluPopcount (.reg k) s

/-- `clz` (R111): the leading-zero count of `a` into `a`. -/
def execClz (s : State) : Result :=
  unary aluClz (.reg accumulator) s

/-- `clzr` (R112): the leading-zero count of `k` into `a`. -/
def execClzr (k : RegOrFlag) (s : State) : Result :=
  unary aluClz (.reg k) s

end Sys2Proof.Machine
end

