-- ==== Sys2Proof/Machine/Dispatch.lean ====
section
/-! DEFINITION. The dispatch of R204: one arm per instruction, each one call of its meaning. -/

namespace Sys2Proof.Machine

def exec (i : Instr) (s : State) : Host.Outcome State Fault Refusal :=
  match i with
  -- halt and character I/O (41_halt_io.md)
  | .halt => Sys2Proof.Machine.execHalt s
  | .getc => Sys2Proof.Machine.execGetc s
  | .getcr k => Sys2Proof.Machine.execGetcr k s
  | .putc => Sys2Proof.Machine.execPutc s
  | .putci n => Sys2Proof.Machine.execPutci n s
  -- unary operations (42_unary.md)
  | .not => Sys2Proof.Machine.execNot s
  | .notr k => Sys2Proof.Machine.execNotr k s
  | .neg => Sys2Proof.Machine.execNeg s
  | .negr k => Sys2Proof.Machine.execNegr k s
  | .popcount => Sys2Proof.Machine.execPopcount s
  | .popcountr k => Sys2Proof.Machine.execPopcountr k s
  | .clz => Sys2Proof.Machine.execClz s
  | .clzr k => Sys2Proof.Machine.execClzr k s
  -- binary arithmetic (43_arith.md)
  | .add => Sys2Proof.Machine.execAdd s
  | .addi n => Sys2Proof.Machine.execAddi n s
  | .addr k => Sys2Proof.Machine.execAddr k s
  | .addrr k1 k2 => Sys2Proof.Machine.execAddrr k1 k2 s
  | .addir n k => Sys2Proof.Machine.execAddir n k s
  | .sub => Sys2Proof.Machine.execSub s
  | .subi n => Sys2Proof.Machine.execSubi n s
  | .subr k => Sys2Proof.Machine.execSubr k s
  | .subrr k1 k2 => Sys2Proof.Machine.execSubrr k1 k2 s
  | .subir n k => Sys2Proof.Machine.execSubir n k s
  | .mul => Sys2Proof.Machine.execMul s
  | .muli n => Sys2Proof.Machine.execMuli n s
  | .mulr k => Sys2Proof.Machine.execMulr k s
  | .mulrr k1 k2 => Sys2Proof.Machine.execMulrr k1 k2 s
  | .mulir n k => Sys2Proof.Machine.execMulir n k s
  | .div => Sys2Proof.Machine.execDiv s
  | .divi n => Sys2Proof.Machine.execDivi n s
  | .divr k => Sys2Proof.Machine.execDivr k s
  | .divrr k1 k2 => Sys2Proof.Machine.execDivrr k1 k2 s
  | .divir n k => Sys2Proof.Machine.execDivir n k s
  | .mod => Sys2Proof.Machine.execMod s
  | .modi n => Sys2Proof.Machine.execModi n s
  | .modr k => Sys2Proof.Machine.execModr k s
  | .modrr k1 k2 => Sys2Proof.Machine.execModrr k1 k2 s
  | .modir n k => Sys2Proof.Machine.execModir n k s
  -- bitwise operations and shifts (44_bitwise_shift.md)
  | .or => Sys2Proof.Machine.execOr s
  | .ori n => Sys2Proof.Machine.execOri n s
  | .orr k => Sys2Proof.Machine.execOrr k s
  | .orrr k1 k2 => Sys2Proof.Machine.execOrrr k1 k2 s
  | .orir n k => Sys2Proof.Machine.execOrir n k s
  | .and => Sys2Proof.Machine.execAnd s
  | .andi n => Sys2Proof.Machine.execAndi n s
  | .andr k => Sys2Proof.Machine.execAndr k s
  | .andrr k1 k2 => Sys2Proof.Machine.execAndrr k1 k2 s
  | .andir n k => Sys2Proof.Machine.execAndir n k s
  | .xor => Sys2Proof.Machine.execXor s
  | .xori n => Sys2Proof.Machine.execXori n s
  | .xorr k => Sys2Proof.Machine.execXorr k s
  | .xorrr k1 k2 => Sys2Proof.Machine.execXorrr k1 k2 s
  | .xorir n k => Sys2Proof.Machine.execXorir n k s
  | .shl => Sys2Proof.Machine.execShl s
  | .shli n => Sys2Proof.Machine.execShli n s
  | .shlr k => Sys2Proof.Machine.execShlr k s
  | .shlrr k1 k2 => Sys2Proof.Machine.execShlrr k1 k2 s
  | .shlir n k => Sys2Proof.Machine.execShlir n k s
  | .shr => Sys2Proof.Machine.execShr s
  | .shri n => Sys2Proof.Machine.execShri n s
  | .shrr k => Sys2Proof.Machine.execShrr k s
  | .shrrr k1 k2 => Sys2Proof.Machine.execShrrr k1 k2 s
  | .shrir n k => Sys2Proof.Machine.execShrir n k s
  -- store, load and move (45_memory_move.md)
  | .storei n => Sys2Proof.Machine.execStorei n s
  | .storer k => Sys2Proof.Machine.execStorer k s
  | .storeii n1 n2 => Sys2Proof.Machine.execStoreii n1 n2 s
  | .storeri k n => Sys2Proof.Machine.execStoreri k n s
  | .storerr k1 k2 => Sys2Proof.Machine.execStorerr k1 k2 s
  | .storeir n k => Sys2Proof.Machine.execStoreir n k s
  | .loadi n => Sys2Proof.Machine.execLoadi n s
  | .loadr k => Sys2Proof.Machine.execLoadr k s
  | .loadir n k => Sys2Proof.Machine.execLoadir n k s
  | .loadrr k1 k2 => Sys2Proof.Machine.execLoadrr k1 k2 s
  | .movi n => Sys2Proof.Machine.execMovi n s
  | .movr k => Sys2Proof.Machine.execMovr k s
  | .movrr k1 k2 => Sys2Proof.Machine.execMovrr k1 k2 s
  | .movir n k => Sys2Proof.Machine.execMovir n k s
  -- test and compare (46_flags.md)
  | .testr k => Sys2Proof.Machine.execTestr k s
  | .cmpi n => Sys2Proof.Machine.execCmpi n s
  | .cmpr k => Sys2Proof.Machine.execCmpr k s
  -- jumps (47_control.md)
  | .jmpi n => Sys2Proof.Machine.execJmpi n s
  | .jmpr k => Sys2Proof.Machine.execJmpr k s
  | .joi n => Sys2Proof.Machine.execJoi n s
  | .jnoi n => Sys2Proof.Machine.execJnoi n s
  | .jzi n => Sys2Proof.Machine.execJzi n s
  | .jnzi n => Sys2Proof.Machine.execJnzi n s
  | .jpei n => Sys2Proof.Machine.execJpei n s
  | .jpoi n => Sys2Proof.Machine.execJpoi n s
  | .jli n => Sys2Proof.Machine.execJli n s
  | .jlei n => Sys2Proof.Machine.execJlei n s
  | .jgei n => Sys2Proof.Machine.execJgei n s
  | .jazi n => Sys2Proof.Machine.execJazi n s
  -- stack (48_stack.md)
  | .push => Sys2Proof.Machine.execPush s
  | .pushi n => Sys2Proof.Machine.execPushi n s
  | .pushr k => Sys2Proof.Machine.execPushr k s
  | .pop => Sys2Proof.Machine.execPop s
  | .popr k => Sys2Proof.Machine.execPopr k s
  -- call and return (49_call_ret.md)
  | .calli n => Sys2Proof.Machine.execCalli n s
  | .callr k => Sys2Proof.Machine.execCallr k s
  | .ret => Sys2Proof.Machine.execRet s

end Sys2Proof.Machine
end

