-- ==== Sys2Proof/Machine/Engine.lean ====
section
/-! DEFINITION. The fetch-accumulate-decode-dispatch loop (spec/40_engine_and_operands.md R200 to R206).
The instruction-pointer policy (R205) and the clearing of the buffer (R204) are part of completing an
instruction: `State.retire` of Ops.lean. -/

namespace Sys2Proof.Machine

/-- What one micro-step answers: the instruction is incomplete and accumulation goes on, or the
micro-step is the instruction's last. -/
inductive Micro where
  | more (s : State)
  | done (r : Result)

/-- Part 1 (R201): append the byte at `ip` to the instruction buffer. -/
def fetchByte (s : State) : State :=
  { s with buf := s.buf ++ [s.mem.read s.ip] }

/-- Parts 2 to 5 (R202 to R205), on the buffer as it stands. -/
def decodeAttempt (s : State) : Micro :=
  match decodeInstruction s.buf with
  | .incomplete => .more { s with ip := s.ip + 1 }
  | .illegalOpcode op => .done (raise (.illegalOpcode op) s)
  | .badRegisterIndex => .done (raise .badRegisterIndex s)
  | .instr i => .done (exec i s)

/-- One micro-step. A buffer that already holds a complete instruction is that of an instruction that
waits (R244): it is not fetched again (R35) but dispatched again. -/
def microStep (s : State) : Micro :=
  match decodeInstruction s.buf with
  | .instr i => .done (exec i s)
  | _ => decodeAttempt (fetchByte s)

/-- Micro-steps until the instruction's last, at most `fuel` of them. -/
def accumulate : Nat → State → Result
  | 0, _ => .fault .neverDecodes
  | fuel + 1, s =>
    match microStep s with
    | .more s' => accumulate fuel s'
    | .done r => r

/-- One instruction (R206): an instruction has at most as many bytes as the longest (R8). -/
def runInstruction (s : State) : Result :=
  accumulate Config.maxIlen s

/-- Store three bytes at `ip` and the two addresses after it, modulo 256 (R54, R274). -/
def State.storeAtIp (s : State) (b0 b1 b2 : Byte) : State :=
  ((s.store s.ip b0).store (s.ip + 1) b1).store (s.ip + 2) b2

end Sys2Proof.Machine
end

