-- ==== Sys2Proof/Machine/Loader.lean ====
section
/-! DEFINITION. What the host does to the machine (spec/10_state.md R37, R38, R40;
70_reset_and_hazards.md R260 to R264): load an image, start a run, deliver an input byte. -/

namespace Sys2Proof.Machine

/-- An image element is storable: -128..255 (R264). -/
def imageElementOk (n : Int) : Bool :=
  decide (-128 ≤ n) && decide (n ≤ 255)

/-- Copy image elements to consecutive addresses from `a` on (R264). -/
def copyImage (a : Nat) : List Int → Memory → Memory
  | [], m => m
  | n :: rest, m => copyImage (a + 1) rest (m.write (BitVec.ofNat 8 a) (wrap8 n))

/-- Load an image into a fresh, all-zero memory (R264). An image of more than 256 elements or with an
element outside -128..255 is refused. -/
def loadImage (image : List Int) : Option Memory :=
  if image.length ≤ Config.memSize ∧ image.all imageElementOk then some (copyImage 0 image []) else none

/-- The host's sequence (R262): fresh memory, the image copied in, registers and flags reset, the run
started with the input still to be delivered (R9, R41). Nothing when the loader refuses. -/
def State.start (image : List Int) (input : List Byte) : Option State :=
  (loadImage image).map fun m => { State.reset with mem := m, input := input }

/-- The host delivers one byte to the input channel (R38, R244). -/
def State.deliver (s : State) (v : Byte) : State :=
  { s with input := s.input ++ [v] }

end Sys2Proof.Machine
end

