-- ==== Sys2Proof/Machine/Step.lean ====
section
/-! DEFINITION. The step: one instruction of a running machine (spec/40_engine_and_operands.md R200,
R206). -/

namespace Sys2Proof.Machine

/-- One step. HALTED and FAULTED are absorbing (R34, R200): the engine does nothing, so the answer is the
same state (log entry 3). -/
def step (s : State) : Host.Outcome State Fault Refusal :=
  match s.run with
  | .running => runInstruction s
  | .halted => .next s
  | .faulted _ => .next s

/-- `s`, about to fetch the instruction whose bits are `w`: its bytes stand at `ip` (log entry 5). The
engine must be running and its buffer empty for the next step to fetch. -/
def State.withFetchWord (s : State) (nbits w : Nat) : State :=
  { s.storeAtIp (tableByte nbits w 0) (tableByte nbits w 1) (tableByte nbits w 2) with
    run := .running
    buf := [] }

end Sys2Proof.Machine
end

