-- ==== Sys2Proof/Safety.lean ====
section
/-! DEFINITION. The terms the statements use. They are written from the spec's rules over the plain
fields of the state, not over the operations the meanings use; the exceptions are reading one byte of
memory, the address a store computes, and raising a fault, which the statements take from the model. -/

namespace Sys2Proof.Machine

/-! ### Values of names and operands -/

/-- What a combined index reads as (10_state.md R31). -/
def nameValue (s : State) : RegOrFlag → Int
  | .reg .a => s.a.toInt
  | .reg .b => s.b.toInt
  | .reg .c => s.c.toInt
  | .reg .d => s.d.toInt
  | .reg .ip => s.ip.toInt
  | .reg .sb => s.sb.toInt
  | .reg .sp => s.sp.toInt
  | .flag .cf => if s.cf then 1 else 0
  | .flag .pf => if s.pf then 1 else 0
  | .flag .zf => if s.zf then 1 else 0
  | .flag .sf => if s.sf then 1 else 0
  | .flag .of => if s.of then 1 else 0

/-- What a decoded operand is worth (R210). -/
def operandValue (s : State) : Operand → Int
  | .imm n => n
  | .reg k => nameValue s k

/-- What a name reads as once the integer `n` is written to it (10_state.md R32, R31). -/
def receivedValue : RegOrFlag → Int → Int
  | .reg _, n => (BitVec.ofInt 8 n).toInt
  | .flag _, n => if BitVec.ofInt 8 n = 0 then 0 else 1

/-- The number of 1 bits of a cell, bit by bit. -/
def bitSum (c : Byte) : Nat :=
  (c.getLsbD 0).toNat + (c.getLsbD 1).toNat + (c.getLsbD 2).toNat + (c.getLsbD 3).toNat +
    (c.getLsbD 4).toNat + (c.getLsbD 5).toNat + (c.getLsbD 6).toNat + (c.getLsbD 7).toNat

/-- `z` is the number of 0 bits of a cell above its highest 1 bit, counted in 8 bits (R222). -/
def IsLeadingZeros (c : Byte) (z : Nat) : Prop :=
  z ≤ 8 ∧ (∀ j, j < 8 → 8 ≤ j + z → c.getLsbD j = false) ∧ (z < 8 → c.getLsbD (7 - z) = true)

/-- `q` and `r` are the floored quotient and remainder of `d` by `m` (00_scope.md R11): the remainder has
the sign of the divisor. -/
def Floored (d m q r : Int) : Prop :=
  d = m * q + r ∧ (0 < m → 0 ≤ r ∧ r < m) ∧ (m < 0 → m < r ∧ r ≤ 0)

/-! ### Frames -/

/-- Every register but `ip`, and every flag, outside `changed` reads as before. -/
def NamesKept (s t : State) (changed : List RegOrFlag) : Prop :=
  ∀ k, k ≠ .reg .ip → k ∉ changed → nameValue t k = nameValue s k

/-- Every byte of memory reads as before. -/
def MemoryKept (s t : State) : Prop :=
  ∀ a, t.mem.read a = s.mem.read a

/-- Every byte of memory but the one at `a` reads as before. -/
def MemoryKeptBut (s t : State) (a : Addr) : Prop :=
  ∀ b, b ≠ a → t.mem.read b = s.mem.read b

/-- Both channels are as before. -/
def ChannelsKept (s t : State) : Prop :=
  t.input = s.input ∧ t.output = s.output

/-- The run goes on as it was, and the instruction buffer is cleared (R204). -/
def RunGoesOn (s t : State) : Prop :=
  t.run = s.run ∧ t.buf = []

/-- Where `ip` stands after an instruction that leaves `left` in it (R205): the value left, but one past
the value before if the two are equal. -/
def nextIp (s : State) (left : Byte) : Byte :=
  if left = s.ip then s.ip + 1 else left

/-! ### What an instruction answers -/

/-- The answer is the next state in which `n` was written to the name `k`, and nothing else changed:
no other register or flag, no byte of memory, no channel; `ip` by the engine's policy (R205). -/
def Writes (s : State) (k : RegOrFlag) (n : Int) (o : Result) : Prop :=
  ∃ t, o = .next t ∧ (k ≠ .reg .ip → nameValue t k = receivedValue k n) ∧ NamesKept s t [k] ∧
    t.ip = (if k = .reg .ip then nextIp s (BitVec.ofInt 8 n) else s.ip + 1) ∧
    MemoryKept s t ∧ ChannelsKept s t ∧ RunGoesOn s t

/-- The answer is the next state in which the byte at `a` is `v`, and nothing else changed but `ip`,
which goes up by 1. -/
def Stores (s : State) (a : Addr) (v : Byte) (o : Result) : Prop :=
  ∃ t, o = .next t ∧ t.mem.read a = v ∧ MemoryKeptBut s t a ∧ NamesKept s t [] ∧
    t.ip = s.ip + 1 ∧ ChannelsKept s t ∧ RunGoesOn s t

/-- The answer is the next state after a push of `v`: `sp` down by 1, the byte there is `v`, and nothing
else changed but `ip`, which goes up by 1. -/
def Pushes (s : State) (v : Byte) (o : Result) : Prop :=
  ∃ t, o = .next t ∧ t.sp = s.sp - 1 ∧ t.mem.read (s.sp - 1) = v ∧ MemoryKeptBut s t (s.sp - 1) ∧
    NamesKept s t [.reg .sp] ∧ t.ip = s.ip + 1 ∧ ChannelsKept s t ∧ RunGoesOn s t

/-- The answer is the next state after a pop into `k`: the byte at `sp` is written to `k`, then `sp` as
it then stands goes up by 1; nothing else changed but `ip`, by the engine's policy (R205). -/
def Pops (s : State) (k : RegOrFlag) (o : Result) : Prop :=
  ∃ t, o = .next t ∧
    (k ≠ .reg .ip → k ≠ .reg .sp → nameValue t k = receivedValue k (s.mem.read s.sp).toNat) ∧
    t.sp = (if k = .reg .sp then s.mem.read s.sp + 1 else s.sp + 1) ∧
    NamesKept s t [k, .reg .sp] ∧
    t.ip = (if k = .reg .ip then nextIp s (s.mem.read s.sp) else s.ip + 1) ∧
    MemoryKept s t ∧ ChannelsKept s t ∧ RunGoesOn s t

/-- The answer is the next state in which `zf`, `sf` and `pf` describe the integer `v` (R216), and
nothing else changed but `ip`, which goes up by 1. -/
def Tests (s : State) (v : Int) (o : Result) : Prop :=
  ∃ t, o = .next t ∧ (t.zf = true ↔ v = 0) ∧ (t.sf = true ↔ v < 0) ∧
    (t.pf = true ↔ bitSum (BitVec.ofInt 8 v) % 2 = 0) ∧
    NamesKept s t [.flag .zf, .flag .sf, .flag .pf] ∧ t.ip = s.ip + 1 ∧
    MemoryKept s t ∧ ChannelsKept s t ∧ RunGoesOn s t

/-- The answer is the next state whose `ip` is where an instruction leaves it that writes `target` there
(R205), and nothing else changed. -/
def Jumps (s : State) (target : Byte) (o : Result) : Prop :=
  ∃ t, o = .next t ∧ t.ip = nextIp s target ∧ NamesKept s t [] ∧ MemoryKept s t ∧
    ChannelsKept s t ∧ RunGoesOn s t

/-- The answer is the next state whose `ip` went up by 1, and nothing else changed. -/
def FallsThrough (s : State) (o : Result) : Prop :=
  ∃ t, o = .next t ∧ t.ip = s.ip + 1 ∧ NamesKept s t [] ∧ MemoryKept s t ∧
    ChannelsKept s t ∧ RunGoesOn s t

/-- The answer is the next state in which one byte was appended to the output, and nothing else changed
but `ip`, which goes up by 1. -/
def Emits (s : State) (v : Byte) (o : Result) : Prop :=
  ∃ t, o = .next t ∧ t.output = s.output ++ [v] ∧ t.input = s.input ∧ t.ip = s.ip + 1 ∧
    NamesKept s t [] ∧ MemoryKept s t ∧ RunGoesOn s t

/-- The answer is the next state in which the first input byte `v` was removed from the input, which is
then `rest`, and written to `k`; nothing else changed but `ip`, by the engine's policy (R205). -/
def Receives (s : State) (k : RegOrFlag) (v : Byte) (rest : List Byte) (o : Result) : Prop :=
  ∃ t, o = .next t ∧ t.input = rest ∧ t.output = s.output ∧
    (k ≠ .reg .ip → nameValue t k = receivedValue k v.toNat) ∧ NamesKept s t [k] ∧
    t.ip = (if k = .reg .ip then nextIp s v else s.ip + 1) ∧ MemoryKept s t ∧ RunGoesOn s t

/-- The answer is the next state in which the run has ended as `how` says, and no register (`ip`
included), flag, byte of memory or channel changed (R100, R231, R238). -/
def Ends (s : State) (how : Run) (o : Result) : Prop :=
  ∃ t, o = .next t ∧ t.run = how ∧ t.ip = s.ip ∧ NamesKept s t [] ∧ MemoryKept s t ∧ ChannelsKept s t

/-! ### Where an instruction's bytes stand -/

/-- Memory holds the bytes from the address `a` on, modulo 256 (R54). -/
def HoldsAt (m : Memory) (a : Addr) : List Byte → Prop
  | [] => True
  | x :: rest => m.read a = x ∧ HoldsAt m (a + 1) rest

/-- The state in which the operation of an instruction of these bytes begins (R206, R25): the bytes are
in the buffer, and `ip` holds the address of the last. -/
def fetched (s : State) (bytes : List Byte) : State :=
  { s with ip := s.ip + BitVec.ofNat 8 (bytes.length - 1), buf := bytes }

/-- Bytes one of whose operands names no register and no flag: the decoder refuses them, and a step that
fetches them ends the run with BadRegisterIndex and does nothing else, `ip` on the last byte (R81, R233). -/
def RefusesIndex (bytes : List Byte) : Prop :=
  decodeInstruction bytes = .badRegisterIndex ∧
  ∀ s : State, s.run = .running → s.buf = [] → HoldsAt s.mem s.ip bytes →
    Ends (fetched s bytes) (.faulted .badRegisterIndex) (step s)

/-! ### Encodings -/

/-- Opcode `op` of shape none is the instruction `i`: the single byte `op` (R71). -/
def EncodesNone (op : Nat) (i : Instr) : Prop :=
  encode i = [BitVec.ofNat 8 op] ∧ decodeInstruction [BitVec.ofNat 8 op] = .instr i

/-- Opcode `op` of shape `i`: one immediate byte, signed (R72). -/
def EncodesImm (op : Nat) (f : Int → Instr) : Prop :=
  ∀ x : Byte, decodeInstruction [BitVec.ofNat 8 op, x] = .instr (f x.toInt) ∧
    encode (f x.toInt) = [BitVec.ofNat 8 op, x]

/-- The number of a combined index (R20, R27). -/
def combinedIndex : RegOrFlag → Nat
  | .reg .a => 0
  | .reg .b => 1
  | .reg .c => 2
  | .reg .d => 3
  | .reg .ip => 4
  | .reg .sb => 5
  | .reg .sp => 6
  | .flag .cf => 7
  | .flag .pf => 8
  | .flag .zf => 9
  | .flag .sf => 10
  | .flag .of => 11

/-- The byte that holds a combined index (R73). -/
def indexCell (k : RegOrFlag) : Byte :=
  BitVec.ofNat 8 (combinedIndex k)

/-- Opcode `op` of shape `r`: one byte holding a combined index, 12 and up refused (R73, R81). -/
def EncodesReg (op : Nat) (f : RegOrFlag → Instr) : Prop :=
  (∀ k, decodeInstruction [BitVec.ofNat 8 op, indexCell k] = .instr (f k) ∧
    encode (f k) = [BitVec.ofNat 8 op, indexCell k]) ∧
  ∀ x : Byte, 12 ≤ x.toNat → RefusesIndex [BitVec.ofNat 8 op, x]

/-- Opcode `op` of shape `ii`: two immediate bytes (R72). -/
def EncodesImmImm (op : Nat) (f : Int → Int → Instr) : Prop :=
  ∀ x y : Byte, decodeInstruction [BitVec.ofNat 8 op, x, y] = .instr (f x.toInt y.toInt) ∧
    encode (f x.toInt y.toInt) = [BitVec.ofNat 8 op, x, y]

/-- Opcode `op` of shape `ir`: an immediate byte, then an index byte (R72, R73, R81). -/
def EncodesImmReg (op : Nat) (f : Int → RegOrFlag → Instr) : Prop :=
  (∀ (x : Byte) k, decodeInstruction [BitVec.ofNat 8 op, x, indexCell k] = .instr (f x.toInt k) ∧
    encode (f x.toInt k) = [BitVec.ofNat 8 op, x, indexCell k]) ∧
  ∀ x y : Byte, 12 ≤ y.toNat → RefusesIndex [BitVec.ofNat 8 op, x, y]

/-- Opcode `op` of shape `ri`: an index byte, then an immediate byte (R73, R72, R81). -/
def EncodesRegImm (op : Nat) (f : RegOrFlag → Int → Instr) : Prop :=
  (∀ (x : Byte) k, decodeInstruction [BitVec.ofNat 8 op, indexCell k, x] = .instr (f k x.toInt) ∧
    encode (f k x.toInt) = [BitVec.ofNat 8 op, indexCell k, x]) ∧
  ∀ x y : Byte, 12 ≤ x.toNat → RefusesIndex [BitVec.ofNat 8 op, x, y]

/-- Opcode `op` of shape `rr`: one packed byte, the first index in bits 7:4, the second in bits 3:0,
refused when either is 12 or more (R74, R81). -/
def EncodesRegReg (op : Nat) (f : RegOrFlag → RegOrFlag → Instr) : Prop :=
  (∀ k1 k2,
    decodeInstruction [BitVec.ofNat 8 op, BitVec.ofNat 8 (16 * combinedIndex k1 + combinedIndex k2)] =
      .instr (f k1 k2) ∧
    encode (f k1 k2) =
      [BitVec.ofNat 8 op, BitVec.ofNat 8 (16 * combinedIndex k1 + combinedIndex k2)]) ∧
  ∀ x : Byte, 12 ≤ x.toNat / 16 ∨ 12 ≤ x.toNat % 16 →
    RefusesIndex [BitVec.ofNat 8 op, x]

/-! ### The two families with repeated forms -/

/-- The two forms of a unary operation from opcode `op` on (42_unary.md): encodings, and what each form
answers. `law` says what an answer is for the source's value. -/
def UnaryForms (op : Nat) (bare : Instr) (reg : RegOrFlag → Instr)
    (law : Int → State → Result → Prop) : Prop :=
  EncodesNone op bare ∧ EncodesReg (op + 1) reg ∧
  ∀ s, law (nameValue s accumulator) s (exec bare s) ∧ ∀ k, law (nameValue s k) s (exec (reg k) s)

/-- The five forms of a binary operation from opcode `op` on (R212, R213): encodings, and what each form
answers. `law` is given the destination's value, the source's value and the destination. -/
def BinaryForms (op : Nat) (bare : Instr) (imm : Int → Instr) (reg : RegOrFlag → Instr)
    (regReg : RegOrFlag → RegOrFlag → Instr) (immReg : Int → RegOrFlag → Instr)
    (law : Int → Int → State → RegOrFlag → Result → Prop) : Prop :=
  EncodesNone op bare ∧ EncodesImm (op + 1) imm ∧ EncodesReg (op + 2) reg ∧
  EncodesRegReg (op + 3) regReg ∧ EncodesImmReg (op + 4) immReg ∧
  ∀ s,
    law (nameValue s accumulator) (nameValue s accumulator) s accumulator (exec bare s) ∧
    (∀ n, law (nameValue s accumulator) n s accumulator (exec (imm n) s)) ∧
    (∀ k, law (nameValue s accumulator) (nameValue s k) s accumulator (exec (reg k) s)) ∧
    (∀ k1 k2, law (nameValue s k2) (nameValue s k1) s k2 (exec (regReg k1 k2) s)) ∧
    (∀ n k, law (nameValue s k) n s k (exec (immReg n k) s))

/-- In the state `s` a conditional jump to `n` is the unconditional jump where `c` holds, and falls
through where it does not. -/
def JumpDecides (s : State) (n : Int) (f : Int → Instr) (c : Prop) : Prop :=
  (c → Jumps s (BitVec.ofInt 8 n) (exec (f n) s)) ∧ (¬ c → FallsThrough s (exec (f n) s))

/-- A conditional jump of opcode `op` (47_control.md R182 to R191): its encoding, a jump to the target
modulo 256 where the predicate holds, nothing but the advance where it does not. -/
def ConditionalJump (op : Nat) (f : Int → Instr) (predicate : State → Prop) : Prop :=
  EncodesImm op f ∧
  ∀ s n, JumpDecides s n f (predicate s)

/-! ### Whole-machine terms -/

/-- The names an instruction's rule writes, the engine's advance of `ip` apart. -/
def writtenNames : Instr → List RegOrFlag
  -- halt and character I/O (41_halt_io.md)
  | .halt => []
  | .getc => [accumulator]
  | .getcr k => [k]
  | .putc => []
  | .putci _ => []
  -- unary operations (42_unary.md)
  | .not => [accumulator]
  | .notr _ => [accumulator]
  | .neg => [accumulator]
  | .negr _ => [accumulator]
  | .popcount => [accumulator]
  | .popcountr _ => [accumulator]
  | .clz => [accumulator]
  | .clzr _ => [accumulator]
  -- binary arithmetic (43_arith.md)
  | .add => [accumulator]
  | .addi _ => [accumulator]
  | .addr _ => [accumulator]
  | .addrr _ k2 => [k2]
  | .addir _ k => [k]
  | .sub => [accumulator]
  | .subi _ => [accumulator]
  | .subr _ => [accumulator]
  | .subrr _ k2 => [k2]
  | .subir _ k => [k]
  | .mul => [accumulator]
  | .muli _ => [accumulator]
  | .mulr _ => [accumulator]
  | .mulrr _ k2 => [k2]
  | .mulir _ k => [k]
  | .div => [accumulator]
  | .divi _ => [accumulator]
  | .divr _ => [accumulator]
  | .divrr _ k2 => [k2]
  | .divir _ k => [k]
  | .mod => [accumulator]
  | .modi _ => [accumulator]
  | .modr _ => [accumulator]
  | .modrr _ k2 => [k2]
  | .modir _ k => [k]
  -- bitwise operations and shifts (44_bitwise_shift.md)
  | .or => [accumulator]
  | .ori _ => [accumulator]
  | .orr _ => [accumulator]
  | .orrr _ k2 => [k2]
  | .orir _ k => [k]
  | .and => [accumulator]
  | .andi _ => [accumulator]
  | .andr _ => [accumulator]
  | .andrr _ k2 => [k2]
  | .andir _ k => [k]
  | .xor => [accumulator]
  | .xori _ => [accumulator]
  | .xorr _ => [accumulator]
  | .xorrr _ k2 => [k2]
  | .xorir _ k => [k]
  | .shl => [accumulator]
  | .shli _ => [accumulator]
  | .shlr _ => [accumulator]
  | .shlrr _ k2 => [k2]
  | .shlir _ k => [k]
  | .shr => [accumulator]
  | .shri _ => [accumulator]
  | .shrr _ => [accumulator]
  | .shrrr _ k2 => [k2]
  | .shrir _ k => [k]
  -- store, load and move (45_memory_move.md)
  | .storei _ => []
  | .storer _ => []
  | .storeii _ _ => []
  | .storeri _ _ => []
  | .storerr _ _ => []
  | .storeir _ _ => []
  | .loadi _ => [accumulator]
  | .loadr _ => [accumulator]
  | .loadir _ k => [k]
  | .loadrr _ k2 => [k2]
  | .movi _ => [accumulator]
  | .movr _ => [accumulator]
  | .movrr _ k2 => [k2]
  | .movir _ k => [k]
  -- test and compare (46_flags.md)
  | .testr _ => [.flag .zf, .flag .pf, .flag .sf]
  | .cmpi _ => [.flag .zf, .flag .pf, .flag .sf]
  | .cmpr _ => [.flag .zf, .flag .pf, .flag .sf]
  -- jumps (47_control.md)
  | .jmpi _ => [.reg .ip]
  | .jmpr _ => [.reg .ip]
  | .joi _ => [.reg .ip]
  | .jnoi _ => [.reg .ip]
  | .jzi _ => [.reg .ip]
  | .jnzi _ => [.reg .ip]
  | .jpei _ => [.reg .ip]
  | .jpoi _ => [.reg .ip]
  | .jli _ => [.reg .ip]
  | .jlei _ => [.reg .ip]
  | .jgei _ => [.reg .ip]
  | .jazi _ => [.reg .ip]
  -- stack (48_stack.md)
  | .push => [.reg .sp]
  | .pushi _ => [.reg .sp]
  | .pushr _ => [.reg .sp]
  | .pop => [accumulator, .reg .sp]
  | .popr k => [k, .reg .sp]
  -- call and return (49_call_ret.md)
  | .calli _ => []
  | .callr _ => []
  | .ret => []

/-- The address an instruction's rule stores to, if it stores. -/
def storedAddress (s : State) : Instr → Option Addr
  -- halt and character I/O (41_halt_io.md)
  | .halt => none
  | .getc => none
  | .getcr _ => none
  | .putc => none
  | .putci _ => none
  -- unary operations (42_unary.md)
  | .not => none
  | .notr _ => none
  | .neg => none
  | .negr _ => none
  | .popcount => none
  | .popcountr _ => none
  | .clz => none
  | .clzr _ => none
  -- binary arithmetic (43_arith.md)
  | .add => none
  | .addi _ => none
  | .addr _ => none
  | .addrr _ _ => none
  | .addir _ _ => none
  | .sub => none
  | .subi _ => none
  | .subr _ => none
  | .subrr _ _ => none
  | .subir _ _ => none
  | .mul => none
  | .muli _ => none
  | .mulr _ => none
  | .mulrr _ _ => none
  | .mulir _ _ => none
  | .div => none
  | .divi _ => none
  | .divr _ => none
  | .divrr _ _ => none
  | .divir _ _ => none
  | .mod => none
  | .modi _ => none
  | .modr _ => none
  | .modrr _ _ => none
  | .modir _ _ => none
  -- bitwise operations and shifts (44_bitwise_shift.md)
  | .or => none
  | .ori _ => none
  | .orr _ => none
  | .orrr _ _ => none
  | .orir _ _ => none
  | .and => none
  | .andi _ => none
  | .andr _ => none
  | .andrr _ _ => none
  | .andir _ _ => none
  | .xor => none
  | .xori _ => none
  | .xorr _ => none
  | .xorrr _ _ => none
  | .xorir _ _ => none
  | .shl => none
  | .shli _ => none
  | .shlr _ => none
  | .shlrr _ _ => none
  | .shlir _ _ => none
  | .shr => none
  | .shri _ => none
  | .shrr _ => none
  | .shrrr _ _ => none
  | .shrir _ _ => none
  -- store, load and move (45_memory_move.md)
  | .storei n => some (addrOf n)
  | .storer k => some (addrOf (rfRead s k))
  | .storeii n1 _ => some (addrOf n1)
  | .storeri k _ => some (addrOf (rfRead s k))
  | .storerr k1 _ => some (addrOf (rfRead s k1))
  | .storeir n _ => some (addrOf n)
  | .loadi _ => none
  | .loadr _ => none
  | .loadir _ _ => none
  | .loadrr _ _ => none
  | .movi _ => none
  | .movr _ => none
  | .movrr _ _ => none
  | .movir _ _ => none
  -- test and compare (46_flags.md)
  | .testr _ => none
  | .cmpi _ => none
  | .cmpr _ => none
  -- jumps (47_control.md)
  | .jmpi _ => none
  | .jmpr _ => none
  | .joi _ => none
  | .jnoi _ => none
  | .jzi _ => none
  | .jnzi _ => none
  | .jpei _ => none
  | .jpoi _ => none
  | .jli _ => none
  | .jlei _ => none
  | .jgei _ => none
  | .jazi _ => none
  -- stack (48_stack.md)
  | .push => some (s.sp - 1)
  | .pushi _ => some (s.sp - 1)
  | .pushr _ => some (s.sp - 1)
  | .pop => none
  | .popr _ => none
  -- call and return (49_call_ret.md)
  | .calli _ => none
  | .callr _ => none
  | .ret => none

/-- The divisor of a division or modulo (43_arith.md R128 to R137). -/
def divisorOf : Instr → Option Operand
  -- halt and character I/O (41_halt_io.md)
  | .halt => none
  | .getc => none
  | .getcr _ => none
  | .putc => none
  | .putci _ => none
  -- unary operations (42_unary.md)
  | .not => none
  | .notr _ => none
  | .neg => none
  | .negr _ => none
  | .popcount => none
  | .popcountr _ => none
  | .clz => none
  | .clzr _ => none
  -- binary arithmetic (43_arith.md)
  | .add => none
  | .addi _ => none
  | .addr _ => none
  | .addrr _ _ => none
  | .addir _ _ => none
  | .sub => none
  | .subi _ => none
  | .subr _ => none
  | .subrr _ _ => none
  | .subir _ _ => none
  | .mul => none
  | .muli _ => none
  | .mulr _ => none
  | .mulrr _ _ => none
  | .mulir _ _ => none
  | .div => some (.reg accumulator)
  | .divi n => some (.imm n)
  | .divr k => some (.reg k)
  | .divrr k1 _ => some (.reg k1)
  | .divir n _ => some (.imm n)
  | .mod => some (.reg accumulator)
  | .modi n => some (.imm n)
  | .modr k => some (.reg k)
  | .modrr k1 _ => some (.reg k1)
  | .modir n _ => some (.imm n)
  -- bitwise operations and shifts (44_bitwise_shift.md)
  | .or => none
  | .ori _ => none
  | .orr _ => none
  | .orrr _ _ => none
  | .orir _ _ => none
  | .and => none
  | .andi _ => none
  | .andr _ => none
  | .andrr _ _ => none
  | .andir _ _ => none
  | .xor => none
  | .xori _ => none
  | .xorr _ => none
  | .xorrr _ _ => none
  | .xorir _ _ => none
  | .shl => none
  | .shli _ => none
  | .shlr _ => none
  | .shlrr _ _ => none
  | .shlir _ _ => none
  | .shr => none
  | .shri _ => none
  | .shrr _ => none
  | .shrrr _ _ => none
  | .shrir _ _ => none
  -- store, load and move (45_memory_move.md)
  | .storei _ => none
  | .storer _ => none
  | .storeii _ _ => none
  | .storeri _ _ => none
  | .storerr _ _ => none
  | .storeir _ _ => none
  | .loadi _ => none
  | .loadr _ => none
  | .loadir _ _ => none
  | .loadrr _ _ => none
  | .movi _ => none
  | .movr _ => none
  | .movrr _ _ => none
  | .movir _ _ => none
  -- test and compare (46_flags.md)
  | .testr _ => none
  | .cmpi _ => none
  | .cmpr _ => none
  -- jumps (47_control.md)
  | .jmpi _ => none
  | .jmpr _ => none
  | .joi _ => none
  | .jnoi _ => none
  | .jzi _ => none
  | .jnzi _ => none
  | .jpei _ => none
  | .jpoi _ => none
  | .jli _ => none
  | .jlei _ => none
  | .jgei _ => none
  | .jazi _ => none
  -- stack (48_stack.md)
  | .push => none
  | .pushi _ => none
  | .pushr _ => none
  | .pop => none
  | .popr _ => none
  -- call and return (49_call_ret.md)
  | .calli _ => none
  | .callr _ => none
  | .ret => none

/-- The count of a shift (44_bitwise_shift.md R153 to R162). -/
def shiftCountOf : Instr → Option Operand
  -- halt and character I/O (41_halt_io.md)
  | .halt => none
  | .getc => none
  | .getcr _ => none
  | .putc => none
  | .putci _ => none
  -- unary operations (42_unary.md)
  | .not => none
  | .notr _ => none
  | .neg => none
  | .negr _ => none
  | .popcount => none
  | .popcountr _ => none
  | .clz => none
  | .clzr _ => none
  -- binary arithmetic (43_arith.md)
  | .add => none
  | .addi _ => none
  | .addr _ => none
  | .addrr _ _ => none
  | .addir _ _ => none
  | .sub => none
  | .subi _ => none
  | .subr _ => none
  | .subrr _ _ => none
  | .subir _ _ => none
  | .mul => none
  | .muli _ => none
  | .mulr _ => none
  | .mulrr _ _ => none
  | .mulir _ _ => none
  | .div => none
  | .divi _ => none
  | .divr _ => none
  | .divrr _ _ => none
  | .divir _ _ => none
  | .mod => none
  | .modi _ => none
  | .modr _ => none
  | .modrr _ _ => none
  | .modir _ _ => none
  -- bitwise operations and shifts (44_bitwise_shift.md)
  | .or => none
  | .ori _ => none
  | .orr _ => none
  | .orrr _ _ => none
  | .orir _ _ => none
  | .and => none
  | .andi _ => none
  | .andr _ => none
  | .andrr _ _ => none
  | .andir _ _ => none
  | .xor => none
  | .xori _ => none
  | .xorr _ => none
  | .xorrr _ _ => none
  | .xorir _ _ => none
  | .shl => some (.reg accumulator)
  | .shli n => some (.imm n)
  | .shlr k => some (.reg k)
  | .shlrr k1 _ => some (.reg k1)
  | .shlir n _ => some (.imm n)
  | .shr => some (.reg accumulator)
  | .shri n => some (.imm n)
  | .shrr k => some (.reg k)
  | .shrrr k1 _ => some (.reg k1)
  | .shrir n _ => some (.imm n)
  -- store, load and move (45_memory_move.md)
  | .storei _ => none
  | .storer _ => none
  | .storeii _ _ => none
  | .storeri _ _ => none
  | .storerr _ _ => none
  | .storeir _ _ => none
  | .loadi _ => none
  | .loadr _ => none
  | .loadir _ _ => none
  | .loadrr _ _ => none
  | .movi _ => none
  | .movr _ => none
  | .movrr _ _ => none
  | .movir _ _ => none
  -- test and compare (46_flags.md)
  | .testr _ => none
  | .cmpi _ => none
  | .cmpr _ => none
  -- jumps (47_control.md)
  | .jmpi _ => none
  | .jmpr _ => none
  | .joi _ => none
  | .jnoi _ => none
  | .jzi _ => none
  | .jnzi _ => none
  | .jpei _ => none
  | .jpoi _ => none
  | .jli _ => none
  | .jlei _ => none
  | .jgei _ => none
  | .jazi _ => none
  -- stack (48_stack.md)
  | .push => none
  | .pushi _ => none
  | .pushr _ => none
  | .pop => none
  | .popr _ => none
  -- call and return (49_call_ret.md)
  | .calli _ => none
  | .callr _ => none
  | .ret => none

/-- The opcode of a reserved operation (49_call_ret.md R197 to R199). -/
def reservedOpcode : Instr → Option Byte
  -- halt and character I/O (41_halt_io.md)
  | .halt => none
  | .getc => none
  | .getcr _ => none
  | .putc => none
  | .putci _ => none
  -- unary operations (42_unary.md)
  | .not => none
  | .notr _ => none
  | .neg => none
  | .negr _ => none
  | .popcount => none
  | .popcountr _ => none
  | .clz => none
  | .clzr _ => none
  -- binary arithmetic (43_arith.md)
  | .add => none
  | .addi _ => none
  | .addr _ => none
  | .addrr _ _ => none
  | .addir _ _ => none
  | .sub => none
  | .subi _ => none
  | .subr _ => none
  | .subrr _ _ => none
  | .subir _ _ => none
  | .mul => none
  | .muli _ => none
  | .mulr _ => none
  | .mulrr _ _ => none
  | .mulir _ _ => none
  | .div => none
  | .divi _ => none
  | .divr _ => none
  | .divrr _ _ => none
  | .divir _ _ => none
  | .mod => none
  | .modi _ => none
  | .modr _ => none
  | .modrr _ _ => none
  | .modir _ _ => none
  -- bitwise operations and shifts (44_bitwise_shift.md)
  | .or => none
  | .ori _ => none
  | .orr _ => none
  | .orrr _ _ => none
  | .orir _ _ => none
  | .and => none
  | .andi _ => none
  | .andr _ => none
  | .andrr _ _ => none
  | .andir _ _ => none
  | .xor => none
  | .xori _ => none
  | .xorr _ => none
  | .xorrr _ _ => none
  | .xorir _ _ => none
  | .shl => none
  | .shli _ => none
  | .shlr _ => none
  | .shlrr _ _ => none
  | .shlir _ _ => none
  | .shr => none
  | .shri _ => none
  | .shrr _ => none
  | .shrrr _ _ => none
  | .shrir _ _ => none
  -- store, load and move (45_memory_move.md)
  | .storei _ => none
  | .storer _ => none
  | .storeii _ _ => none
  | .storeri _ _ => none
  | .storerr _ _ => none
  | .storeir _ _ => none
  | .loadi _ => none
  | .loadr _ => none
  | .loadir _ _ => none
  | .loadrr _ _ => none
  | .movi _ => none
  | .movr _ => none
  | .movrr _ _ => none
  | .movir _ _ => none
  -- test and compare (46_flags.md)
  | .testr _ => none
  | .cmpi _ => none
  | .cmpr _ => none
  -- jumps (47_control.md)
  | .jmpi _ => none
  | .jmpr _ => none
  | .joi _ => none
  | .jnoi _ => none
  | .jzi _ => none
  | .jnzi _ => none
  | .jpei _ => none
  | .jpoi _ => none
  | .jli _ => none
  | .jlei _ => none
  | .jgei _ => none
  | .jazi _ => none
  -- stack (48_stack.md)
  | .push => none
  | .pushi _ => none
  | .pushr _ => none
  | .pop => none
  | .popr _ => none
  -- call and return (49_call_ret.md)
  | .calli _ => some 97
  | .callr _ => some 98
  | .ret => some 99

/-- The byte an instruction's rule stores, if it stores (45_memory_move.md R163 to R168, 48_stack.md R192
to R194). Every instruction with a `storedAddress` has a byte here: StoresAreSeenAtOnce says so. -/
def storedByte (s : State) : Instr → Option Byte
  | .storei _ => some s.a
  | .storer _ => some s.a
  | .storeii _ n2 => some (BitVec.ofInt 8 n2)
  | .storeri _ n => some (BitVec.ofInt 8 n)
  | .storerr _ k2 => some (BitVec.ofInt 8 (nameValue s k2))
  | .storeir _ k => some (BitVec.ofInt 8 (nameValue s k))
  | .push => some s.a
  | .pushi n => some (BitVec.ofInt 8 n)
  | .pushr k => some (BitVec.ofInt 8 (nameValue s k))
  | _ => none

/-- The byte at `b` once `v` was stored at `a` in the state `s`. -/
def readAfterStore (s : State) (a : Addr) (v : Byte) (b : Addr) : Byte :=
  if b = a then v else s.mem.read b

/-- One of the three forms of push (48_stack.md). -/
def IsPush (i : Instr) : Prop :=
  i = .push ∨ (∃ n, i = .pushi n) ∨ ∃ k, i = .pushr k

/-- `j` is the form of pop into `k` (48_stack.md R195, R196). -/
def IsPopInto (j : Instr) (k : RegOrFlag) : Prop :=
  (j = .pop ∧ k = accumulator) ∨ j = .popr k

/-- What a pop of the byte `v` into `k` leaves in `k` and in `sp`: the destination is written, then `sp`
as it then stands goes up by 1; an `ip` as destination is left by the engine's policy (R205). -/
def PopLeaves (u w : State) (k : RegOrFlag) (v : Byte) : Prop :=
  (k ≠ .reg .ip → k ≠ .reg .sp → nameValue w k = receivedValue k v.toNat) ∧
  w.sp = (if k = .reg .sp then v + 1 else u.sp + 1) ∧
  w.ip = (if k = .reg .ip then nextIp u v else u.ip + 1)

/-- The ways in which the rule of an instruction, dispatched in the state `s`, ends a run: halt (R100), a
reserved operation (R234), a zero divisor (R235), a negative shift count (R236). -/
def EndsBy (s : State) (i : Instr) (how : Run) : Prop :=
  (i = .halt ∧ how = .halted) ∨
  (∃ op, reservedOpcode i = some op ∧ how = .faulted (.unimplemented op)) ∨
  (∃ o, divisorOf i = some o ∧ operandValue s o = 0 ∧ how = .faulted .divideByZero) ∨
  (∃ o, shiftCountOf i = some o ∧ operandValue s o < 0 ∧ how = .faulted .negativeShiftCount)

/-- The instruction-level step, written from R206: read the opcode, look up its operand length, read
that many bytes more, decode, perform. -/
def instructionLevelStep (s : State) : Result :=
  let op := s.mem.read s.ip
  match operandLength op with
  | none => raise (.illegalOpcode op) s
  | some length =>
    let bytes := op :: (List.range length).map fun j => s.mem.read (s.ip + BitVec.ofNat 8 (j + 1))
    match decodeInstruction bytes with
    | .instr i => exec i (fetched s bytes)
    | .badRegisterIndex => raise .badRegisterIndex (fetched s bytes)
    | .incomplete => .fault .neverDecodes
    | .illegalOpcode _ => .fault .neverDecodes

/-- A fault with a recorded value records one the spec gives it (60_exceptions.md R230). -/
def FaultCause.legal : FaultCause → Prop
  | .illegalOpcode op => 100 ≤ op.toNat
  | .badRegisterIndex => True
  | .unimplemented op => 97 ≤ op.toNat ∧ op.toNat ≤ 99
  | .divideByZero => True
  | .negativeShiftCount => True

/-- An instruction that waits for input (R244). -/
def Reads (i : Instr) : Prop :=
  i = .getc ∨ ∃ k, i = .getcr k

/-- What every step keeps: memory is canonical; the buffer holds at most three cells (R35), and while the
machine runs it is empty or holds the input instruction that waits; a recorded fault is legal. -/
structure State.Inv (s : State) : Prop where
  memory : s.mem.wf = true
  buffer : s.buf.length ≤ 3
  waiting : s.run = .running → s.buf = [] ∨ ∃ i, Reads i ∧ s.buf = encode i
  legal : ∀ cause, s.run = .faulted cause → cause.legal

/-- Apply a function to the state of an answer. -/
def mapNext (f : State → State) : Result → Result
  | .next s => .next (f s)
  | .fault r => .fault r
  | .refused r => .refused r

end Sys2Proof.Machine
end

