-- ==== Sys2Proof/Certificates/Slice0/Obligations.lean ====
section
/-! DEFINITION. The statements for the provers, from the spec's numbered rules. The terms are those of
Safety.lean. OBLIGATIONS.json lists them with the rule or the sections each rests on. -/

open Sys2Proof Sys2Proof.Machine

/-! ### Encoding (30_encoding.md) -/

/-- Words written out from the encoding tables decode to the instructions they stand for (R71 to R76):
one of each shape, each from a different family. -/
def Obligations.SampleWordsDecode : Prop :=
  decodeInstruction [0] = .instr .halt ∧
  decodeInstruction [75, 0x12] = .instr (.movrr (.reg .b) (.reg .c)) ∧
  decodeInstruction [78, 0x80] = .instr (.cmpi (-128)) ∧
  decodeInstruction [81, 4] = .instr (.jmpr (.reg .ip)) ∧
  decodeInstruction [65, 100, 42] = .instr (.storeii 100 42) ∧
  decodeInstruction [66, 1, 7] = .instr (.storeri (.reg .b) 7) ∧
  decodeInstruction [52, 1, 9] = .instr (.xorir 1 (.flag .zf)) ∧
  decodeInstruction [67, 0x69] = .instr (.storerr (.reg .sp) (.flag .zf))

/-- Decoding the bytes of any well-formed instruction gives it back. -/
def Obligations.DecodeOfEncode : Prop :=
  ∀ i : Instr, i.wellFormed = true → decodeInstruction (encode i) = .instr i

/-- Whatever bytes decode, the instruction is well formed and its bytes are those: no bit of an encoding
is a don't care (R83), and no instruction has two encodings. -/
def Obligations.EncodeOfDecode : Prop :=
  ∀ (bytes : List Byte) (i : Instr), decodeInstruction bytes = .instr i →
    i.wellFormed = true ∧ encode i = bytes

/-- The bytes that follow an instruction have no part in decoding it, and no instruction's bytes begin
another's: the length follows from the opcode alone (R70, R78). -/
def Obligations.EncodingIsPrefixFree : Prop :=
  ∀ i j : Instr, i.wellFormed = true → j.wellFormed = true → ∀ xs ys : List Byte,
    (encode i ++ xs = encode j ++ ys → i = j) ∧ decodePrefix (encode i ++ xs) = .instr i

/-! ### The engine (40_engine_and_operands.md) -/

/-- Where the bytes at `ip` are a well-formed instruction's, a step is that instruction's meaning in the
state whose `ip` is the address of its last byte (R206, R25), with its bytes in the buffer (R35). -/
def Obligations.StepRunsTheDecodedInstruction : Prop :=
  ∀ (s : State) (i : Instr), s.run = .running → s.buf = [] → i.wellFormed = true →
    HoldsAt s.mem s.ip (encode i) → step s = exec i (fetched s (encode i))

/-- The micro-steps compose to the instruction-level step (R206), faults of decoding included. -/
def Obligations.StepIsTheInstructionLevelStep : Prop :=
  ∀ s : State, s.run = .running → s.buf = [] → step s = instructionLevelStep s

/-- The engine takes no step from HALTED or FAULTED (R34). That the model's step then answers the same
state is the model's choice: log entry 3. -/
def Obligations.EndedRunsStay : Prop :=
  ∀ s : State, s.run ≠ .running → step s = .next s

/-- A byte of 100 or more, fetched as an opcode, ends the run with IllegalOpcode recording it; `ip` stays
at the byte and nothing else changes (R232, decision D19 of the spec). -/
def Obligations.IllegalOpcodeFaults : Prop :=
  ∀ s : State, s.run = .running → s.buf = [] → 100 ≤ (s.mem.read s.ip).toNat →
    Ends s (.faulted (.illegalOpcode (s.mem.read s.ip))) (step s)

/-- A register index of 12 or more ends the run with BadRegisterIndex once the instruction's last byte is
fetched; `ip` stays at that byte and nothing else changes (R233, decision D20 of the spec). -/
def Obligations.BadRegisterIndexFaults : Prop :=
  ∀ (s : State) (bytes : List Byte), s.run = .running → s.buf = [] →
    decodeInstruction bytes = .badRegisterIndex → HoldsAt s.mem s.ip bytes →
    Ends (fetched s bytes) (.faulted .badRegisterIndex) (step s)

/-- Every fault of a step is precise: it leaves every register but `ip`, every flag, every byte of
memory and both channels, and records a cause with a legal value (R238, R230, decision D28). -/
def Obligations.FaultsArePrecise : Prop :=
  ∀ (s t : State) (cause : FaultCause), s.run = .running → s.buf = [] → step s = .next t →
    t.run = .faulted cause →
    NamesKept s t [] ∧ MemoryKept s t ∧ ChannelsKept s t ∧ cause.legal

/-- A getc or getcr with no input does not complete. It is reached by fetching the instruction, and
from there no step changes anything, however many; when a byte has been delivered the instruction
completes and consumes it (R244). That a step of a waiting instruction answers the same state, and that
the instruction is dispatched again without a fetch, is the model's reading of a step that cannot complete
(U15), log entry 6: notes/assumptions/6.md. -/
def Obligations.InputWait : Prop :=
  ∀ (s : State) (i : Instr), Reads i → s.run = .running → s.input = [] →
    (s.buf = [] → HoldsAt s.mem s.ip (encode i) → step s = .next (fetched s (encode i))) ∧
    (s.buf = encode i →
      (∀ n, Sys2Proof.core.run n s = .next s) ∧
      ∀ v, ∃ t, step (s.deliver v) = .next t ∧ t.input = [] ∧ RunGoesOn s t)

/-! ### Invariant and progress -/

/-- The invariant holds right after reset. -/
def Obligations.ResetMeetsTheInvariant : Prop :=
  State.reset.Inv

/-- Every step keeps the invariant. -/
def Obligations.StepKeepsTheInvariant : Prop :=
  ∀ s t : State, s.Inv → step s = .next t → t.Inv

/-- From every state that meets the invariant a step answers a next state: it never faults outside the
machine's own fault state, and refuses nothing. That a step from HALTED or FAULTED answers at all is the
model's choice, log entry 3: the spec takes no step there (R34). That a step of an input instruction that
waits answers is the model's reading, log entry 6 (notes/assumptions/6.md): the spec calls it stuck, a step
that cannot complete (R244, U15). -/
def Obligations.StepAlwaysAnswers : Prop :=
  ∀ s : State, s.Inv → ∃ t, step s = .next t

/-- Starting a run from any image and delivering an input byte keep the invariant; so does `withFetchWord`,
which is no action of the spec's host (R37 lets it write memory only before the run) but the model's own
interface for placing an instruction, the model's choice, log entry 5. -/
def Obligations.HostActionsKeepTheInvariant : Prop :=
  (∀ image input s, State.start image input = some s → s.Inv) ∧
  (∀ (s : State) v, s.Inv → (s.deliver v).Inv) ∧
  ∀ (s : State) nbits w, s.Inv → (s.withFetchWord nbits w).Inv

/-- Two canonical memories that read the same at every address are the same data. -/
def Obligations.EqualReadsAreEqualMemories : Prop :=
  ∀ m m' : Memory, m.wf = true → m'.wf = true → (∀ a, m.read a = m'.read a) → m = m'

/-! ### Reset and loading -/

/-- The state after reset (R41): all registers 0, flags false, memory zero, buffer and channels empty.
The values of `a`, `b`, `c`, `d`, `sb`, the flags and the memory are decisions D26 and D27 of the spec;
the empty input and the empty image are the model's choice, log entry 2. -/
def Obligations.ResetState : Prop :=
  (∀ k, nameValue State.reset k = 0) ∧ (∀ a, State.reset.mem.read a = 0) ∧
  State.reset.run = .running ∧ State.reset.buf = [] ∧ State.reset.input = [] ∧
  State.reset.output = []

/-- Loading (R264): a loadable image stands at address 0 with zeros after it, everything else is as
after reset, and the input is the one given; any other image is refused (decision D31 of the spec). -/
def Obligations.LoadingAnImage : Prop :=
  ∀ (image : List Int) (input : List Byte),
    (image.length ≤ 256 ∧ (∀ n ∈ image, -128 ≤ n ∧ n ≤ 255) →
      ∃ s, State.start image input = some s ∧
        (∀ (j : Nat) (h : j < image.length),
          s.mem.read (BitVec.ofNat 8 j) = BitVec.ofInt 8 image[j]) ∧
        (∀ a : Addr, image.length ≤ a.toNat → s.mem.read a = 0) ∧
        (∀ k, nameValue s k = 0) ∧ s.run = .running ∧ s.buf = [] ∧ s.input = input ∧
        s.output = []) ∧
    (¬ (image.length ≤ 256 ∧ ∀ n ∈ image, -128 ≤ n ∧ n ≤ 255) → State.start image input = none)

/-! ### Halt and character I/O (41_halt_io.md) -/

/-- `halt` (R100): the run is HALTED; `ip` keeps the address of the `halt` byte, all else is kept. HALTED
is final: no steps lead out of it. -/
def Obligations.HaltRule : Prop :=
  EncodesNone 0 .halt ∧ (∀ s, Ends s .halted (exec .halt s)) ∧
  ∀ (n : Nat) (s t : State), s.run = .halted → Sys2Proof.core.run n s = .next t → t.run = .halted

/-- `getc` and `getcr` (R101, R102): the first input byte is removed and written to the destination;
with no input nothing happens at all. That the accumulator is getc's destination is the spec's decision
D23, the value and the end of input its decision D25; that the answer is then the same state is the
model's reading of the wait, log entry 6. -/
def Obligations.GetcRules : Prop :=
  EncodesNone 1 .getc ∧ EncodesReg 2 .getcr ∧
  ∀ s : State,
    (∀ v rest, s.input = v :: rest →
      Receives s accumulator v rest (exec .getc s) ∧ ∀ k, Receives s k v rest (exec (.getcr k) s)) ∧
    (s.input = [] → exec .getc s = .next s ∧ ∀ k, exec (.getcr k) s = .next s)

/-- `putc` and `putci` (R103, R104): the accumulator's cell, or the immediate modulo 256, is appended to
the output. That a negative accumulator is emitted as its cell is the spec's decision D25. -/
def Obligations.PutcRules : Prop :=
  EncodesNone 3 .putc ∧ EncodesImm 4 .putci ∧
  ∀ s, Emits s s.a (exec .putc s) ∧ ∀ n, Emits s (BitVec.ofInt 8 n) (exec (.putci n) s)

/-! ### Unary operations (42_unary.md) -/

/-- `not` and `notr` (R105, R106): `-s - 1`, which is the bitwise complement of the source's cell. -/
def Obligations.NotRules : Prop :=
  UnaryForms 5 .not .notr fun v s o =>
    Writes s accumulator (-v - 1) o ∧ BitVec.ofInt 8 (-v - 1) = ~~~ BitVec.ofInt 8 v

/-- `neg` and `negr` (R107, R108): the negated source, normalized. -/
def Obligations.NegRules : Prop :=
  UnaryForms 7 .neg .negr fun v s o => Writes s accumulator (-v) o

/-- `popcount` and `popcountr` (R109, R110): the number of 1 bits of the source's cell. -/
def Obligations.PopcountRules : Prop :=
  UnaryForms 9 .popcount .popcountr fun v s o => Writes s accumulator (bitSum (BitVec.ofInt 8 v)) o

/-- `clz` and `clzr` (R111, R112): the number of leading 0 bits of the source's cell. -/
def Obligations.ClzRules : Prop :=
  UnaryForms 11 .clz .clzr fun v s o =>
    ∃ z, IsLeadingZeros (BitVec.ofInt 8 v) z ∧ Writes s accumulator z o

/-! ### Binary arithmetic (43_arith.md) -/

/-- `add` in its five forms (R113 to R117): `D <- D + S`, modulo 256. -/
def Obligations.AddRules : Prop :=
  BinaryForms 13 .add .addi .addr .addrr .addir fun d v s k o => Writes s k (d + v) o

/-- `sub` in its five forms (R118 to R122): `D <- D - S`, modulo 256. -/
def Obligations.SubRules : Prop :=
  BinaryForms 18 .sub .subi .subr .subrr .subir fun d v s k o => Writes s k (d - v) o

/-- `mul` in its five forms (R123 to R127): `D <- D * S`, modulo 256. -/
def Obligations.MulRules : Prop :=
  BinaryForms 23 .mul .muli .mulr .mulrr .mulir fun d v s k o => Writes s k (d * v) o

/-- `div` in its five forms (R128 to R132): the floored quotient, modulo 256; a zero source ends the run
with DivideByZero and writes nothing. -/
def Obligations.DivRules : Prop :=
  BinaryForms 28 .div .divi .divr .divrr .divir fun d v s k o =>
    (v = 0 → Ends s (.faulted .divideByZero) o) ∧
    (v ≠ 0 → ∃ q r, Floored d v q r ∧ Writes s k q o)

/-- `mod` in its five forms (R133 to R137): the floored remainder; a zero source ends the run with
DivideByZero and writes nothing. -/
def Obligations.ModRules : Prop :=
  BinaryForms 33 .mod .modi .modr .modrr .modir fun d v s k o =>
    (v = 0 → Ends s (.faulted .divideByZero) o) ∧
    (v ≠ 0 → ∃ q r, Floored d v q r ∧ Writes s k r o)

/-! ### Bitwise operations and shifts (44_bitwise_shift.md) -/

/-- `or` in its five forms (R138 to R142), bit by bit on the cells. -/
def Obligations.OrRules : Prop :=
  BinaryForms 38 .or .ori .orr .orrr .orir fun d v s k o =>
    Writes s k (BitVec.ofInt 8 d ||| BitVec.ofInt 8 v).toInt o

/-- `and` in its five forms (R143 to R147), bit by bit on the cells. -/
def Obligations.AndRules : Prop :=
  BinaryForms 43 .and .andi .andr .andrr .andir fun d v s k o =>
    Writes s k (BitVec.ofInt 8 d &&& BitVec.ofInt 8 v).toInt o

/-- `xor` in its five forms (R148 to R152), bit by bit on the cells. -/
def Obligations.XorRules : Prop :=
  BinaryForms 48 .xor .xori .xorr .xorrr .xorir fun d v s k o =>
    Writes s k (BitVec.ofInt 8 d ^^^ BitVec.ofInt 8 v).toInt o

/-- `shl` in its five forms (R153 to R157): the low 8 bits of `D * 2^S`, so 0 from a count of 8 on; a
negative count ends the run with NegativeShiftCount and writes nothing. -/
def Obligations.ShlRules : Prop :=
  BinaryForms 53 .shl .shli .shlr .shlrr .shlir fun d v s k o =>
    (v < 0 → Ends s (.faulted .negativeShiftCount) o) ∧
    (0 ≤ v → Writes s k (d * 2 ^ v.toNat) o) ∧ (8 ≤ v → Writes s k 0 o)

/-- `shr` in its five forms (R158 to R162): the floored quotient of `D` by `2^S`, so 0 or -1 from a count
of 8 on; a negative count ends the run with NegativeShiftCount and writes nothing. -/
def Obligations.ShrRules : Prop :=
  BinaryForms 58 .shr .shri .shrr .shrrr .shrir fun d v s k o =>
    (v < 0 → Ends s (.faulted .negativeShiftCount) o) ∧
    (0 ≤ v → ∃ q r, Floored d (2 ^ v.toNat) q r ∧ Writes s k q o) ∧
    (8 ≤ v → -128 ≤ d → d ≤ 127 → Writes s k (if d < 0 then -1 else 0) o)

/-! ### Store, load and move (45_memory_move.md) -/

/-- `store` in its six forms (R163 to R168): the value's cell to the address operand's value modulo 256,
and to no other address. The addresses are computed by the model's own `addrOf`, which the last clause
pins to the value modulo 256. -/
def Obligations.StoreRules : Prop :=
  EncodesImm 63 .storei ∧ EncodesReg 64 .storer ∧ EncodesImmImm 65 .storeii ∧
  EncodesRegImm 66 .storeri ∧ EncodesRegReg 67 .storerr ∧ EncodesImmReg 68 .storeir ∧
  ∀ s : State,
    (∀ n, Stores s (addrOf n) s.a (exec (.storei n) s)) ∧
    (∀ k, Stores s (addrOf (nameValue s k)) s.a (exec (.storer k) s)) ∧
    (∀ n1 n2, Stores s (addrOf n1) (BitVec.ofInt 8 n2) (exec (.storeii n1 n2) s)) ∧
    (∀ k n, Stores s (addrOf (nameValue s k)) (BitVec.ofInt 8 n) (exec (.storeri k n) s)) ∧
    (∀ k1 k2, Stores s (addrOf (nameValue s k1)) (BitVec.ofInt 8 (nameValue s k2))
      (exec (.storerr k1 k2) s)) ∧
    (∀ n k, Stores s (addrOf n) (BitVec.ofInt 8 (nameValue s k)) (exec (.storeir n k) s)) ∧
    ∀ n : Int, ((addrOf n).toNat : Int) = n % 256

/-- `load` in its four forms (R169 to R172): the cell at the address operand's value modulo 256 to the
destination. -/
def Obligations.LoadRules : Prop :=
  EncodesImm 69 .loadi ∧ EncodesReg 70 .loadr ∧ EncodesImmReg 71 .loadir ∧ EncodesRegReg 72 .loadrr ∧
  ∀ s : State,
    (∀ n, Writes s accumulator (s.mem.read (BitVec.ofInt 8 n)).toNat (exec (.loadi n) s)) ∧
    (∀ k, Writes s accumulator (s.mem.read (BitVec.ofInt 8 (nameValue s k))).toNat
      (exec (.loadr k) s)) ∧
    (∀ n k, Writes s k (s.mem.read (BitVec.ofInt 8 n)).toNat (exec (.loadir n k) s)) ∧
    (∀ k1 k2, Writes s k2 (s.mem.read (BitVec.ofInt 8 (nameValue s k1))).toNat
      (exec (.loadrr k1 k2) s))

/-- `mov` in its four forms (R173 to R176): the source's value to the destination. -/
def Obligations.MovRules : Prop :=
  EncodesImm 73 .movi ∧ EncodesReg 74 .movr ∧ EncodesRegReg 75 .movrr ∧ EncodesImmReg 76 .movir ∧
  ∀ s : State,
    (∀ n, Writes s accumulator n (exec (.movi n) s)) ∧
    (∀ k, Writes s accumulator (nameValue s k) (exec (.movr k) s)) ∧
    (∀ k1 k2, Writes s k2 (nameValue s k1) (exec (.movrr k1 k2) s)) ∧
    (∀ n k, Writes s k n (exec (.movir n k) s))

/-! ### Test and compare (46_flags.md) -/

/-- `testr`, `cmpi`, `cmpr` (R177 to R179): zero, sign and parity of the value or of the exact
difference; `cf`, `of` and every register are kept. -/
def Obligations.TestAndCompareRules : Prop :=
  EncodesReg 77 .testr ∧ EncodesImm 78 .cmpi ∧ EncodesReg 79 .cmpr ∧
  ∀ s : State,
    (∀ k, Tests s (nameValue s k) (exec (.testr k) s)) ∧
    (∀ n, Tests s (nameValue s accumulator - n) (exec (.cmpi n) s)) ∧
    (∀ k, Tests s (nameValue s accumulator - nameValue s k) (exec (.cmpr k) s))

/-- After a compare, the conditional jumps that follow it decide the signed order of the accumulator and
the operand for all values, because the difference is exact. `u` is any later state with the flags the
compare left. -/
def Obligations.CompareDecidesSignedOrder : Prop :=
  ∀ (s t u : State) (v m : Int),
    ((∃ n, v = n ∧ exec (.cmpi n) s = .next t) ∨ ∃ k, v = nameValue s k ∧ exec (.cmpr k) s = .next t) →
    u.zf = t.zf → u.sf = t.sf →
    JumpDecides u m .jli (s.a.toInt < v) ∧ JumpDecides u m .jlei (s.a.toInt ≤ v) ∧
    JumpDecides u m .jgei (v ≤ s.a.toInt) ∧ JumpDecides u m .jzi (s.a.toInt = v) ∧
    JumpDecides u m .jnzi (s.a.toInt ≠ v)

/-! ### Jumps (47_control.md) -/

/-- `jmpi` and `jmpr` (R180, R181): `ip` is the target modulo 256, and a jump to the address of its own
last byte falls through. -/
def Obligations.JumpRules : Prop :=
  EncodesImm 80 .jmpi ∧ EncodesReg 81 .jmpr ∧
  ∀ s, (∀ n, Jumps s (BitVec.ofInt 8 n) (exec (.jmpi n) s)) ∧
    ∀ k, Jumps s (BitVec.ofInt 8 (nameValue s k)) (exec (.jmpr k) s)

/-- The ten conditional jumps with their predicates (R182 to R191). -/
def Obligations.ConditionalJumpRules : Prop :=
  ConditionalJump 82 .joi (fun s => s.of = true) ∧
  ConditionalJump 83 .jnoi (fun s => s.of = false) ∧
  ConditionalJump 84 .jzi (fun s => s.zf = true) ∧
  ConditionalJump 85 .jnzi (fun s => s.zf = false) ∧
  ConditionalJump 86 .jpei (fun s => s.pf = true) ∧
  ConditionalJump 87 .jpoi (fun s => s.pf = false) ∧
  ConditionalJump 88 .jli (fun s => s.sf = true) ∧
  ConditionalJump 89 .jlei (fun s => s.sf = true ∨ s.zf = true) ∧
  ConditionalJump 90 .jgei (fun s => s.sf = false) ∧
  ConditionalJump 91 .jazi (fun s => s.a = 0)

/-! ### The stack (48_stack.md) -/

/-- `push` in its three forms (R192 to R194): the value is resolved before `sp` moves. -/
def Obligations.PushRules : Prop :=
  EncodesNone 92 .push ∧ EncodesImm 93 .pushi ∧ EncodesReg 94 .pushr ∧
  ∀ s, Pushes s s.a (exec .push s) ∧ (∀ n, Pushes s (BitVec.ofInt 8 n) (exec (.pushi n) s)) ∧
    ∀ k, Pushes s (BitVec.ofInt 8 (nameValue s k)) (exec (.pushr k) s)

/-- `pop` in its two forms (R195, R196): the destination is written before `sp` goes up. -/
def Obligations.PopRules : Prop :=
  EncodesNone 95 .pop ∧ EncodesReg 96 .popr ∧
  ∀ s, Pops s accumulator (exec .pop s) ∧ ∀ k, Pops s k (exec (.popr k) s)

/-- A pop after a push, in every form of either, `sp` and memory untouched between: the pop leaves the byte
the push stored, in whatever it pops into, and restores `sp` unless it pops into `sp`. -/
def Obligations.PopUndoesPush : Prop :=
  ∀ (i j : Instr) (s t u : State) (k : RegOrFlag), IsPush i → IsPopInto j k → exec i s = .next t →
    u.sp = t.sp → u.mem = t.mem →
    ∃ v w, storedByte s i = some v ∧ exec j u = .next w ∧ PopLeaves u w k v ∧
      (k ≠ .reg .sp → w.sp = s.sp)

/-! ### Call and return (49_call_ret.md) -/

/-- `calli`, `callr` and `ret` (R197 to R199) end the run with Unimplemented, recording the opcode, and
change nothing else. -/
def Obligations.CallAndReturnRules : Prop :=
  EncodesImm 97 .calli ∧ EncodesReg 98 .callr ∧ EncodesNone 99 .ret ∧
  ∀ s, (∀ n, Ends s (.faulted (.unimplemented 97)) (exec (.calli n) s)) ∧
    (∀ k, Ends s (.faulted (.unimplemented 98)) (exec (.callr k) s)) ∧
    Ends s (.faulted (.unimplemented 99)) (exec .ret s)

/-! ### The whole machine -/

/-- No instruction of the table is stopped by the model: every meaning answers a next state. For getc and
getcr with no input, which do not complete (R244, U15), that answer is the model's reading of the wait, log
entry 6: notes/assumptions/6.md. -/
def Obligations.EveryInstructionAnswers : Prop :=
  ∀ (i : Instr) (s : State), ∃ t, exec i s = .next t

/-- No instruction changes a register (`ip` apart) or a flag that its rule does not write. -/
def Obligations.OnlyWrittenNamesChange : Prop :=
  ∀ (i : Instr) (s t : State), exec i s = .next t → NamesKept s t (writtenNames i)

/-- Carry and overflow change only in an instruction that names them as an operand: no operation
computes them (R28, R30; decision D12 of the spec). -/
def Obligations.CarryAndOverflowAreNeverComputed : Prop :=
  ∀ (i : Instr) (s t : State), exec i s = .next t →
    (t.cf ≠ s.cf → Operand.reg (.flag .cf) ∈ i.operands) ∧
    (t.of ≠ s.of → Operand.reg (.flag .of) ∈ i.operands)

/-- No instruction changes a byte of memory other than the one at the address it stores to. -/
def Obligations.OnlyTheStoredByteChanges : Prop :=
  ∀ (i : Instr) (s t : State), exec i s = .next t →
    ∀ a : Addr, storedAddress s i ≠ some a → t.mem.read a = s.mem.read a

/-- Only putc and putci write the output, each at its end; only getc and getcr consume the input, from
its front. -/
def Obligations.OnlyPutcAndGetcUseTheChannels : Prop :=
  ∀ (i : Instr) (s t : State), exec i s = .next t →
    (t.output = s.output ∨ (i = .putc ∧ t.output = s.output ++ [s.a]) ∨
      ∃ n, i = .putci n ∧ t.output = s.output ++ [BitVec.ofInt 8 n]) ∧
    (t.input = s.input ∨ (Reads i ∧ ∃ v, s.input = v :: t.input))

/-- Over any number of steps from any state, output bytes are never removed or reordered, and input is
consumed from the front only. -/
def Obligations.ChannelsAreOrderedOverRuns : Prop :=
  ∀ (n : Nat) (s t : State), Sys2Proof.core.run n s = .next t →
    s.output <+: t.output ∧ t.input <:+ s.input

/-- An instruction that is dispatched ends the run only in the ways its rule gives: halt, a reserved
operation, a zero divisor, a negative shift count; and an instruction that ends it changes nothing else.
The two faults of decoding end a run before any instruction is dispatched: HowAStepEndsARun has them. -/
def Obligations.HowAnInstructionEndsARun : Prop :=
  ∀ (i : Instr) (s t : State), exec i s = .next t → s.run = .running → t.run ≠ .running →
    Ends s t.run (exec i s) ∧
    ((i = .halt ∧ t.run = .halted) ∨
     (∃ op, reservedOpcode i = some op ∧ t.run = .faulted (.unimplemented op)) ∨
     (∃ o, divisorOf i = some o ∧ operandValue s o = 0 ∧ t.run = .faulted .divideByZero) ∨
     (∃ o, shiftCountOf i = some o ∧ operandValue s o < 0 ∧ t.run = .faulted .negativeShiftCount))

/-- An instruction that completes and does not write `ip` leaves it at the next instruction's address
(R205). -/
def Obligations.SequentialUnlessIpIsWritten : Prop :=
  ∀ (i : Instr) (s t : State), exec i s = .next t → s.run = .running → t.run = .running →
    t.buf = [] → s.buf ≠ [] → .reg .ip ∉ writtenNames i → t.ip = s.ip + 1

/-- Registers have no implicit uses but those of `a`, `ip` and `sp`: an instruction that does not name
one of the other four neither depends on it nor changes it. In particular none uses `sb` (R22). -/
def Obligations.UnnamedRegistersHaveNoInfluence : Prop :=
  ∀ (i : Instr) (s : State) (r : Reg) (v : Byte), r ≠ .a → r ≠ .ip → r ≠ .sp →
    Operand.reg (.reg r) ∉ i.operands →
    exec i (s.setReg r v) = mapNext (fun t => t.setReg r v) (exec i s)

/-- Whatever instruction stores, a push among them, its byte is seen at once (R62, R273): in every state
with the memory it left, a fetch, every form of load and every form of pop find that byte at its address
and, at every other address, what was there before. -/
def Obligations.StoresAreSeenAtOnce : Prop :=
  ∀ (i : Instr) (s t : State) (a : Addr), storedAddress s i = some a → exec i s = .next t →
    ∃ v, storedByte s i = some v ∧ ∀ u : State, u.mem = t.mem →
      (fetchByte u).buf = u.buf ++ [readAfterStore s a v u.ip] ∧
      (∀ n, Writes u accumulator (readAfterStore s a v (BitVec.ofInt 8 n)).toNat (exec (.loadi n) u)) ∧
      (∀ k, Writes u accumulator (readAfterStore s a v (BitVec.ofInt 8 (nameValue u k))).toNat
        (exec (.loadr k) u)) ∧
      (∀ n k, Writes u k (readAfterStore s a v (BitVec.ofInt 8 n)).toNat (exec (.loadir n k) u)) ∧
      (∀ k1 k2, Writes u k2 (readAfterStore s a v (BitVec.ofInt 8 (nameValue u k1))).toNat
        (exec (.loadrr k1 k2) u)) ∧
      ∀ j k, IsPopInto j k → ∃ w, exec j u = .next w ∧ PopLeaves u w k (readAfterStore s a v u.sp)

/-- A step ends a run only in the ways the spec gives (R230, R100): an illegal opcode, a bad register index,
or an instruction that halts or faults; and it changes nothing but `ip`, which stays on the last byte
fetched. A step of an instruction that waits for input ends no run. -/
def Obligations.HowAStepEndsARun : Prop :=
  ∀ s t : State, s.Inv → s.run = .running → step s = .next t → t.run ≠ .running →
    s.buf = [] ∧
    ((100 ≤ (s.mem.read s.ip).toNat ∧ t.run = .faulted (.illegalOpcode (s.mem.read s.ip)) ∧
        Ends s t.run (step s)) ∨
     (∃ bytes, HoldsAt s.mem s.ip bytes ∧ decodeInstruction bytes = .badRegisterIndex ∧
        t.run = .faulted .badRegisterIndex ∧ Ends (fetched s bytes) t.run (step s)) ∨
     (∃ i, i.wellFormed = true ∧ HoldsAt s.mem s.ip (encode i) ∧
        EndsBy (fetched s (encode i)) i t.run ∧ Ends (fetched s (encode i)) t.run (step s)))
end

