-- ==== Sys2Proof/Laws/Exec.lean ====
section
/-! SUPPORT. Each instruction as the shared operation it is, true by `rfl`: a proof about an instruction
rewrites with its lemma and goes on with the operation's lemmas of Laws/Ops.lean. -/

namespace Sys2Proof.Machine

variable (s : State) (n n1 n2 : Int) (k k1 k2 : RegOrFlag)

theorem exec_halt_eq : exec .halt s = .next (s.endRun .halted) := rfl
theorem exec_getc_eq : exec .getc s = getInto accumulator s := rfl
theorem exec_getcr_eq : exec (.getcr k) s = getInto k s := rfl
theorem exec_putc_eq : exec .putc s = putByte s.a s := rfl
theorem exec_putci_eq : exec (.putci n) s = putByte (wrap8 n) s := rfl
theorem exec_not_eq : exec .not s = unary aluNot (.reg accumulator) s := rfl
theorem exec_notr_eq : exec (.notr k) s = unary aluNot (.reg k) s := rfl
theorem exec_neg_eq : exec .neg s = unary aluNeg (.reg accumulator) s := rfl
theorem exec_negr_eq : exec (.negr k) s = unary aluNeg (.reg k) s := rfl
theorem exec_popcount_eq : exec .popcount s = unary aluPopcount (.reg accumulator) s := rfl
theorem exec_popcountr_eq : exec (.popcountr k) s = unary aluPopcount (.reg k) s := rfl
theorem exec_clz_eq : exec .clz s = unary aluClz (.reg accumulator) s := rfl
theorem exec_clzr_eq : exec (.clzr k) s = unary aluClz (.reg k) s := rfl
theorem exec_add_eq : exec .add s = binary aluAdd (.reg accumulator) accumulator s := rfl
theorem exec_addi_eq : exec (.addi n) s = binary aluAdd (.imm n) accumulator s := rfl
theorem exec_addr_eq : exec (.addr k) s = binary aluAdd (.reg k) accumulator s := rfl
theorem exec_addrr_eq : exec (.addrr k1 k2) s = binary aluAdd (.reg k1) k2 s := rfl
theorem exec_addir_eq : exec (.addir n k) s = binary aluAdd (.imm n) k s := rfl
theorem exec_sub_eq : exec .sub s = binary aluSub (.reg accumulator) accumulator s := rfl
theorem exec_subi_eq : exec (.subi n) s = binary aluSub (.imm n) accumulator s := rfl
theorem exec_subr_eq : exec (.subr k) s = binary aluSub (.reg k) accumulator s := rfl
theorem exec_subrr_eq : exec (.subrr k1 k2) s = binary aluSub (.reg k1) k2 s := rfl
theorem exec_subir_eq : exec (.subir n k) s = binary aluSub (.imm n) k s := rfl
theorem exec_mul_eq : exec .mul s = binary aluMul (.reg accumulator) accumulator s := rfl
theorem exec_muli_eq : exec (.muli n) s = binary aluMul (.imm n) accumulator s := rfl
theorem exec_mulr_eq : exec (.mulr k) s = binary aluMul (.reg k) accumulator s := rfl
theorem exec_mulrr_eq : exec (.mulrr k1 k2) s = binary aluMul (.reg k1) k2 s := rfl
theorem exec_mulir_eq : exec (.mulir n k) s = binary aluMul (.imm n) k s := rfl
theorem exec_div_eq : exec .div s = binary aluDiv (.reg accumulator) accumulator s := rfl
theorem exec_divi_eq : exec (.divi n) s = binary aluDiv (.imm n) accumulator s := rfl
theorem exec_divr_eq : exec (.divr k) s = binary aluDiv (.reg k) accumulator s := rfl
theorem exec_divrr_eq : exec (.divrr k1 k2) s = binary aluDiv (.reg k1) k2 s := rfl
theorem exec_divir_eq : exec (.divir n k) s = binary aluDiv (.imm n) k s := rfl
theorem exec_mod_eq : exec .mod s = binary aluMod (.reg accumulator) accumulator s := rfl
theorem exec_modi_eq : exec (.modi n) s = binary aluMod (.imm n) accumulator s := rfl
theorem exec_modr_eq : exec (.modr k) s = binary aluMod (.reg k) accumulator s := rfl
theorem exec_modrr_eq : exec (.modrr k1 k2) s = binary aluMod (.reg k1) k2 s := rfl
theorem exec_modir_eq : exec (.modir n k) s = binary aluMod (.imm n) k s := rfl
theorem exec_or_eq : exec .or s = binary aluOr (.reg accumulator) accumulator s := rfl
theorem exec_ori_eq : exec (.ori n) s = binary aluOr (.imm n) accumulator s := rfl
theorem exec_orr_eq : exec (.orr k) s = binary aluOr (.reg k) accumulator s := rfl
theorem exec_orrr_eq : exec (.orrr k1 k2) s = binary aluOr (.reg k1) k2 s := rfl
theorem exec_orir_eq : exec (.orir n k) s = binary aluOr (.imm n) k s := rfl
theorem exec_and_eq : exec .and s = binary aluAnd (.reg accumulator) accumulator s := rfl
theorem exec_andi_eq : exec (.andi n) s = binary aluAnd (.imm n) accumulator s := rfl
theorem exec_andr_eq : exec (.andr k) s = binary aluAnd (.reg k) accumulator s := rfl
theorem exec_andrr_eq : exec (.andrr k1 k2) s = binary aluAnd (.reg k1) k2 s := rfl
theorem exec_andir_eq : exec (.andir n k) s = binary aluAnd (.imm n) k s := rfl
theorem exec_xor_eq : exec .xor s = binary aluXor (.reg accumulator) accumulator s := rfl
theorem exec_xori_eq : exec (.xori n) s = binary aluXor (.imm n) accumulator s := rfl
theorem exec_xorr_eq : exec (.xorr k) s = binary aluXor (.reg k) accumulator s := rfl
theorem exec_xorrr_eq : exec (.xorrr k1 k2) s = binary aluXor (.reg k1) k2 s := rfl
theorem exec_xorir_eq : exec (.xorir n k) s = binary aluXor (.imm n) k s := rfl
theorem exec_shl_eq : exec .shl s = binary aluShl (.reg accumulator) accumulator s := rfl
theorem exec_shli_eq : exec (.shli n) s = binary aluShl (.imm n) accumulator s := rfl
theorem exec_shlr_eq : exec (.shlr k) s = binary aluShl (.reg k) accumulator s := rfl
theorem exec_shlrr_eq : exec (.shlrr k1 k2) s = binary aluShl (.reg k1) k2 s := rfl
theorem exec_shlir_eq : exec (.shlir n k) s = binary aluShl (.imm n) k s := rfl
theorem exec_shr_eq : exec .shr s = binary aluShr (.reg accumulator) accumulator s := rfl
theorem exec_shri_eq : exec (.shri n) s = binary aluShr (.imm n) accumulator s := rfl
theorem exec_shrr_eq : exec (.shrr k) s = binary aluShr (.reg k) accumulator s := rfl
theorem exec_shrrr_eq : exec (.shrrr k1 k2) s = binary aluShr (.reg k1) k2 s := rfl
theorem exec_shrir_eq : exec (.shrir n k) s = binary aluShr (.imm n) k s := rfl
theorem exec_storei_eq : exec (.storei n) s = storeAt (.imm n) s.a s := rfl
theorem exec_storer_eq : exec (.storer k) s = storeAt (.reg k) s.a s := rfl
theorem exec_storeii_eq : exec (.storeii n1 n2) s = storeAt (.imm n1) (wrap8 n2) s := rfl
theorem exec_storeri_eq : exec (.storeri k n) s = storeAt (.reg k) (wrap8 n) s := rfl
theorem exec_storerr_eq : exec (.storerr k1 k2) s = storeAt (.reg k1) (wrap8 (rfRead s k2)) s := rfl
theorem exec_storeir_eq : exec (.storeir n k) s = storeAt (.imm n) (wrap8 (rfRead s k)) s := rfl
theorem exec_loadi_eq : exec (.loadi n) s = loadInto (.imm n) accumulator s := rfl
theorem exec_loadr_eq : exec (.loadr k) s = loadInto (.reg k) accumulator s := rfl
theorem exec_loadir_eq : exec (.loadir n k) s = loadInto (.imm n) k s := rfl
theorem exec_loadrr_eq : exec (.loadrr k1 k2) s = loadInto (.reg k1) k2 s := rfl
theorem exec_movi_eq : exec (.movi n) s = assign accumulator n s := rfl
theorem exec_movr_eq : exec (.movr k) s = assign accumulator (rfRead s k) s := rfl
theorem exec_movrr_eq : exec (.movrr k1 k2) s = assign k2 (rfRead s k1) s := rfl
theorem exec_movir_eq : exec (.movir n k) s = assign k n s := rfl
theorem exec_testr_eq : exec (.testr k) s = complete s (settest (rfRead s k) s) := rfl
theorem exec_cmpi_eq : exec (.cmpi n) s = complete s (settest (rfRead s accumulator - n) s) := rfl
theorem exec_cmpr_eq :
    exec (.cmpr k) s = complete s (settest (rfRead s accumulator - rfRead s k) s) := rfl
theorem exec_jmpi_eq : exec (.jmpi n) s = jumpTo n s := rfl
theorem exec_jmpr_eq : exec (.jmpr k) s = jumpTo (rfRead s k) s := rfl
theorem exec_joi_eq : exec (.joi n) s = jumpIf (overflow s) n s := rfl
theorem exec_jnoi_eq : exec (.jnoi n) s = jumpIf (notOverflow s) n s := rfl
theorem exec_jzi_eq : exec (.jzi n) s = jumpIf (zero s) n s := rfl
theorem exec_jnzi_eq : exec (.jnzi n) s = jumpIf (notZero s) n s := rfl
theorem exec_jpei_eq : exec (.jpei n) s = jumpIf (parityEven s) n s := rfl
theorem exec_jpoi_eq : exec (.jpoi n) s = jumpIf (parityOdd s) n s := rfl
theorem exec_jli_eq : exec (.jli n) s = jumpIf (less s) n s := rfl
theorem exec_jlei_eq : exec (.jlei n) s = jumpIf (lessOrEqual s) n s := rfl
theorem exec_jgei_eq : exec (.jgei n) s = jumpIf (greaterOrEqual s) n s := rfl
theorem exec_jazi_eq : exec (.jazi n) s = jumpIf (accumulatorZero s) n s := rfl
theorem exec_push_eq : exec .push s = pushValue s.a s := rfl
theorem exec_pushi_eq : exec (.pushi n) s = pushValue (wrap8 n) s := rfl
theorem exec_pushr_eq : exec (.pushr k) s = pushValue (wrap8 (rfRead s k)) s := rfl
theorem exec_pop_eq : exec .pop s = popInto accumulator s := rfl
theorem exec_popr_eq : exec (.popr k) s = popInto k s := rfl
theorem exec_calli_eq : exec (.calli n) s = raise (.unimplemented 97) s := rfl
theorem exec_callr_eq : exec (.callr k) s = raise (.unimplemented 98) s := rfl
theorem exec_ret_eq : exec .ret s = raise (.unimplemented 99) s := rfl

end Sys2Proof.Machine
end

