-- ==== Sys2Proof/Laws/State.lean ====
section
/-! SUPPORT. One lemma per field and per update of the state, so that no proof unfolds an update. -/

namespace Sys2Proof.Machine

variable (s t : State)

section setReg
variable (r r' : Reg) (f : Flag) (v : Byte)

@[simp] theorem State.getReg_setReg_same : (s.setReg r v).getReg r = v := by cases r <;> rfl
theorem State.getReg_setReg : (s.setReg r v).getReg r' = if r' = r then v else s.getReg r' := by
  cases r <;> cases r' <;> rfl
@[simp] theorem State.getFlag_setReg : (s.setReg r v).getFlag f = s.getFlag f := by
  cases r <;> cases f <;> rfl
@[simp] theorem State.mem_setReg : (s.setReg r v).mem = s.mem := by cases r <;> rfl
@[simp] theorem State.run_setReg : (s.setReg r v).run = s.run := by cases r <;> rfl
@[simp] theorem State.buf_setReg : (s.setReg r v).buf = s.buf := by cases r <;> rfl
@[simp] theorem State.input_setReg : (s.setReg r v).input = s.input := by cases r <;> rfl
@[simp] theorem State.output_setReg : (s.setReg r v).output = s.output := by cases r <;> rfl
@[simp] theorem State.freeCount_setReg : (s.setReg r v).freeCount = s.freeCount := by cases r <;> rfl
end setReg

section setFlag
variable (r : Reg) (f f' : Flag) (v : Bool)

@[simp] theorem State.getFlag_setFlag_same : (s.setFlag f v).getFlag f = v := by cases f <;> rfl
theorem State.getFlag_setFlag : (s.setFlag f v).getFlag f' = if f' = f then v else s.getFlag f' := by
  cases f <;> cases f' <;> rfl
@[simp] theorem State.getReg_setFlag : (s.setFlag f v).getReg r = s.getReg r := by
  cases f <;> cases r <;> rfl
@[simp] theorem State.ip_setFlag : (s.setFlag f v).ip = s.ip := by cases f <;> rfl
@[simp] theorem State.sp_setFlag : (s.setFlag f v).sp = s.sp := by cases f <;> rfl
@[simp] theorem State.mem_setFlag : (s.setFlag f v).mem = s.mem := by cases f <;> rfl
@[simp] theorem State.run_setFlag : (s.setFlag f v).run = s.run := by cases f <;> rfl
@[simp] theorem State.buf_setFlag : (s.setFlag f v).buf = s.buf := by cases f <;> rfl
@[simp] theorem State.input_setFlag : (s.setFlag f v).input = s.input := by cases f <;> rfl
@[simp] theorem State.output_setFlag : (s.setFlag f v).output = s.output := by cases f <;> rfl
@[simp] theorem State.freeCount_setFlag : (s.setFlag f v).freeCount = s.freeCount := by
  cases f <;> rfl
end setFlag

section store
variable (r : Reg) (f : Flag) (a : Addr) (v : Byte)

@[simp] theorem State.mem_store : (s.store a v).mem = s.mem.write a v := rfl
@[simp] theorem State.getReg_store : (s.store a v).getReg r = s.getReg r := by cases r <;> rfl
@[simp] theorem State.getFlag_store : (s.store a v).getFlag f = s.getFlag f := by cases f <;> rfl
@[simp] theorem State.ip_store : (s.store a v).ip = s.ip := rfl
@[simp] theorem State.run_store : (s.store a v).run = s.run := rfl
@[simp] theorem State.buf_store : (s.store a v).buf = s.buf := rfl
@[simp] theorem State.input_store : (s.store a v).input = s.input := rfl
@[simp] theorem State.output_store : (s.store a v).output = s.output := rfl
@[simp] theorem State.freeCount_store : (s.store a v).freeCount = s.freeCount := rfl
end store

section endRun
variable (r : Reg) (f : Flag) (how : Run)

@[simp] theorem State.run_endRun : (s.endRun how).run = how := rfl
@[simp] theorem State.getReg_endRun : (s.endRun how).getReg r = s.getReg r := by cases r <;> rfl
@[simp] theorem State.getFlag_endRun : (s.endRun how).getFlag f = s.getFlag f := by cases f <;> rfl
@[simp] theorem State.ip_endRun : (s.endRun how).ip = s.ip := rfl
@[simp] theorem State.mem_endRun : (s.endRun how).mem = s.mem := rfl
@[simp] theorem State.input_endRun : (s.endRun how).input = s.input := rfl
@[simp] theorem State.output_endRun : (s.endRun how).output = s.output := rfl
theorem State.buf_endRun_length : (s.endRun how).buf.length ≤ Config.maxIlen := by
  simp only [State.endRun, List.length_take]
  omega
end endRun

section retire
variable (r : Reg) (f : Flag)

@[simp] theorem State.ip_retire :
    (s.retire t).ip = if t.ip = s.ip then s.ip + 1 else t.ip := rfl
theorem State.getReg_retire (h : r ≠ .ip) : (s.retire t).getReg r = t.getReg r := by
  cases r <;> first | rfl | exact absurd rfl h
@[simp] theorem State.getFlag_retire : (s.retire t).getFlag f = t.getFlag f := by cases f <;> rfl
@[simp] theorem State.mem_retire : (s.retire t).mem = t.mem := rfl
@[simp] theorem State.run_retire : (s.retire t).run = t.run := rfl
@[simp] theorem State.buf_retire : (s.retire t).buf = [] := rfl
@[simp] theorem State.input_retire : (s.retire t).input = t.input := rfl
@[simp] theorem State.output_retire : (s.retire t).output = t.output := rfl
@[simp] theorem State.freeCount_retire : (s.retire t).freeCount = t.freeCount := rfl
end retire

section settest
variable (n : Int) (r : Reg)

@[simp] theorem getReg_settest : (settest n s).getReg r = s.getReg r := by cases r <;> rfl
@[simp] theorem zf_settest : (settest n s).zf = decide (n = 0) := rfl
@[simp] theorem sf_settest : (settest n s).sf = decide (n < 0) := rfl
@[simp] theorem pf_settest : (settest n s).pf = evenParity n := rfl
@[simp] theorem cf_settest : (settest n s).cf = s.cf := rfl
@[simp] theorem of_settest : (settest n s).of = s.of := rfl
@[simp] theorem ip_settest : (settest n s).ip = s.ip := rfl
@[simp] theorem mem_settest : (settest n s).mem = s.mem := rfl
@[simp] theorem run_settest : (settest n s).run = s.run := rfl
@[simp] theorem input_settest : (settest n s).input = s.input := rfl
@[simp] theorem output_settest : (settest n s).output = s.output := rfl
end settest

end Sys2Proof.Machine
end

