-- ==== Sys2Proof/Laws/Memory.lean ====
section
/-! SUPPORT. What reading, writing and loading memory can do, and that every memory operation keeps the
canonical form (spec/20_memory.md R50 to R53, 70_reset_and_hazards.md R264). -/

namespace Sys2Proof.Machine

theorem Memory.readAt_erase_self (m : Memory) (a : Nat) :
    Memory.readAt (Memory.erase m a) a = Memory.unlisted := by
  induction m with
  | nil => rfl
  | cons cell rest ih =>
    unfold Memory.erase at ih ⊢
    by_cases h : cell.1 = a
    · simpa [List.filter_cons, h] using ih
    · simpa [List.filter_cons, h, Memory.readAt] using ih

theorem Memory.readAt_erase_other (m : Memory) {a b : Nat} (h : b ≠ a) :
    Memory.readAt (Memory.erase m a) b = Memory.readAt m b := by
  induction m with
  | nil => rfl
  | cons cell rest ih =>
    unfold Memory.erase at ih ⊢
    by_cases hc : cell.1 = a
    · have hb : cell.1 ≠ b := fun e => h (e.symm.trans hc)
      rw [List.filter_cons_of_neg (by simp [hc]), ih]
      simp [Memory.readAt, hb]
    · rw [List.filter_cons_of_pos (by simp [hc])]
      simp only [Memory.readAt, ih]

theorem Memory.readAt_insert_other (m : Memory) (v : Byte) {a b : Nat} (h : b ≠ a) :
    Memory.readAt (Memory.insert a v m) b = Memory.readAt m b := by
  induction m with
  | nil => simp [Memory.insert, Memory.readAt, Ne.symm h]
  | cons cell rest ih =>
    simp only [Memory.insert]
    split
    · simp [Memory.readAt, Ne.symm h]
    · simp only [Memory.readAt, ih]

theorem Memory.readAt_insert_self (m : Memory) (v : Byte) (a : Nat) (h : ∀ cell ∈ m, cell.1 ≠ a) :
    Memory.readAt (Memory.insert a v m) a = v := by
  induction m with
  | nil => simp [Memory.insert, Memory.readAt]
  | cons cell rest ih =>
    simp only [Memory.insert]
    split
    · simp [Memory.readAt]
    · have hc := h cell (by simp)
      simp only [Memory.readAt, if_neg hc]
      exact ih fun c hm => h c (List.mem_cons_of_mem _ hm)

theorem Memory.erase_no_entry (m : Memory) (a : Nat) : ∀ cell ∈ Memory.erase m a, cell.1 ≠ a := by
  intro cell h
  simpa using (List.mem_filter.1 h).2

/-- Everything a write does to reads (R52, R53), for every memory. -/
theorem Memory.read_write (m : Memory) (a b : Addr) (v : Byte) :
    (m.write a v).read b = if b = a then v else m.read b := by
  unfold Memory.write Memory.read
  by_cases hb : b = a
  · subst hb
    rw [if_pos rfl]
    split
    · rename_i hv
      rw [Memory.readAt_erase_self, hv]
    · exact Memory.readAt_insert_self _ _ _ (Memory.erase_no_entry _ _)
  · have hn : b.toNat ≠ a.toNat := fun e => hb (BitVec.eq_of_toNat_eq e)
    rw [if_neg hb]
    split
    · exact Memory.readAt_erase_other m hn
    · rw [Memory.readAt_insert_other _ _ hn, Memory.readAt_erase_other m hn]

/-! ### The canonical form -/

theorem Memory.wfFrom_cons {low a : Nat} {v : Byte} {rest : Memory} :
    Memory.wfFrom low ((a, v) :: rest) = true ↔
      low ≤ a ∧ a < Config.memSize ∧ v ≠ Memory.unlisted ∧ Memory.wfFrom (a + 1) rest = true := by
  simp [Memory.wfFrom, and_assoc]

theorem Memory.wfFrom_mono {low low' : Nat} (h : low' ≤ low) :
    ∀ {m : Memory}, Memory.wfFrom low m = true → Memory.wfFrom low' m = true
  | [], _ => rfl
  | (_, _) :: _, w => by
    rw [Memory.wfFrom_cons] at w ⊢
    exact ⟨h.trans w.1, w.2⟩

theorem Memory.wfFrom_erase (a : Nat) :
    ∀ {m : Memory} {low : Nat}, Memory.wfFrom low m = true → Memory.wfFrom low (Memory.erase m a) = true
  | [], _, _ => rfl
  | (k, v) :: rest, low, w => by
    rw [Memory.wfFrom_cons] at w
    obtain ⟨h1, h2, h3, h4⟩ := w
    have ih := Memory.wfFrom_erase a h4
    unfold Memory.erase at ih ⊢
    by_cases hk : k = a
    · rw [List.filter_cons_of_neg (by simp [hk])]
      exact Memory.wfFrom_mono (by omega) ih
    · rw [List.filter_cons_of_pos (by simp [hk]), Memory.wfFrom_cons]
      exact ⟨h1, h2, h3, ih⟩

theorem Memory.wfFrom_insert {a : Nat} {v : Byte} (ha : a < Config.memSize) (hv : v ≠ Memory.unlisted) :
    ∀ {m : Memory} {low : Nat}, low ≤ a → (∀ cell ∈ m, cell.1 ≠ a) → Memory.wfFrom low m = true →
      Memory.wfFrom low (Memory.insert a v m) = true
  | [], low, hl, _, _ => by
    rw [Memory.insert, Memory.wfFrom_cons]
    exact ⟨hl, ha, hv, rfl⟩
  | (k, w) :: rest, low, hl, hno, hw => by
    rw [Memory.wfFrom_cons] at hw
    obtain ⟨h1, h2, h3, h4⟩ := hw
    have hk : k ≠ a := hno (k, w) (by simp)
    simp only [Memory.insert]
    split
    · rename_i hlt
      rw [Memory.wfFrom_cons, Memory.wfFrom_cons]
      exact ⟨hl, ha, hv, hlt, h2, h3, h4⟩
    · rename_i hge
      rw [Memory.wfFrom_cons]
      exact ⟨h1, h2, h3, Memory.wfFrom_insert ha hv (by omega)
        (fun c hc => hno c (List.mem_cons_of_mem _ hc)) h4⟩

/-- A write keeps the canonical form (R53). -/
theorem Memory.wf_write {m : Memory} (a : Addr) (v : Byte) (h : m.wf = true) :
    (m.write a v).wf = true := by
  unfold Memory.wf Memory.write at *
  split
  · exact Memory.wfFrom_erase _ h
  · rename_i hv
    exact Memory.wfFrom_insert (by simpa [Config.memSize] using a.isLt) hv (Nat.zero_le _)
      (Memory.erase_no_entry m a.toNat) (Memory.wfFrom_erase _ h)

/-- Loading an image keeps the canonical form (R264). -/
theorem copyImage_wf (image : List Int) :
    ∀ (a : Nat) {m : Memory}, m.wf = true → (copyImage a image m).wf = true := by
  induction image with
  | nil => exact fun _ _ h => h
  | cons n rest ih => exact fun a _ h => ih (a + 1) (Memory.wf_write _ _ h)

theorem loadImage_wf {image : List Int} {m : Memory} (h : loadImage image = some m) : m.wf = true := by
  unfold loadImage at h
  split at h
  · exact Option.some.inj h ▸ copyImage_wf image 0 rfl
  · cases h

theorem State.store_wf (s : State) (a : Addr) (v : Byte) (h : s.mem.wf = true) :
    (s.store a v).mem.wf = true :=
  Memory.wf_write a v h

theorem State.withFetchWord_wf (s : State) (nbits w : Nat) (h : s.mem.wf = true) :
    (s.withFetchWord nbits w).mem.wf = true :=
  Memory.wf_write _ _ (Memory.wf_write _ _ (Memory.wf_write _ _ h))

theorem State.reset_mem_wf : State.reset.mem.wf = true := rfl

end Sys2Proof.Machine
end

