-- ==== Sys2Proof/Laws/Operands.lean ====
section
/-! SUPPORT. The two readings of a cell, and what reading and writing a name can do (spec/10_state.md
R31, R32; 40_engine_and_operands.md R214). -/

namespace Sys2Proof

@[simp] theorem wrap8_sint (c : Byte) : wrap8 (sint c) = c := BitVec.ofInt_toInt
@[simp] theorem wrap8_uint (c : Byte) : wrap8 (uint c : Int) = c := by
  simp [wrap8, uint, BitVec.ofInt_natCast]
@[simp] theorem wrap8_norm8 (n : Int) : wrap8 (norm8 n) = wrap8 n := wrap8_sint _

theorem sint_bounds (c : Byte) : -128 ≤ sint c ∧ sint c ≤ 127 := by
  have h1 := BitVec.toInt_lt (x := c)
  have h2 := BitVec.le_toInt (x := c)
  simp only [sint] at *
  omega

/-- An integer in range survives as a cell (R10). -/
theorem sint_wrap8 {n : Int} (h1 : -128 ≤ n) (h2 : n ≤ 127) : sint (wrap8 n) = n := by
  simp only [sint, wrap8, BitVec.toInt_ofInt, Int.bmod_def]
  split <;> omega

namespace Machine

variable (s t : State)

@[simp] theorem rfRead_reg (r : Reg) : rfRead s (.reg r) = sint (s.getReg r) := rfl
@[simp] theorem rfRead_flag (f : Flag) : rfRead s (.flag f) = boolInt (s.getFlag f) := rfl
@[simp] theorem rfWrite_reg (r : Reg) (n : Int) : rfWrite s (.reg r) n = s.setReg r (wrap8 n) := rfl
@[simp] theorem rfWrite_flag (f : Flag) (n : Int) :
    rfWrite s (.flag f) n = s.setFlag f (decide (wrap8 n ≠ 0)) := rfl
@[simp] theorem val_imm (n : Int) : val s (.imm n) = n := rfl
@[simp] theorem val_reg (k : RegOrFlag) : val s (.reg k) = rfRead s k := rfl

section rfWrite
variable (k : RegOrFlag) (n : Int)

@[simp] theorem mem_rfWrite : (rfWrite s k n).mem = s.mem := by cases k <;> simp
@[simp] theorem run_rfWrite : (rfWrite s k n).run = s.run := by cases k <;> simp
@[simp] theorem buf_rfWrite : (rfWrite s k n).buf = s.buf := by cases k <;> simp
@[simp] theorem input_rfWrite : (rfWrite s k n).input = s.input := by cases k <;> simp
@[simp] theorem output_rfWrite : (rfWrite s k n).output = s.output := by cases k <;> simp
@[simp] theorem freeCount_rfWrite : (rfWrite s k n).freeCount = s.freeCount := by cases k <;> simp

/-- The value a name receives when `n` is written to it. -/
def received : RegOrFlag → Int → Int
  | .reg _, n => sint (wrap8 n)
  | .flag _, n => boolInt (decide (wrap8 n ≠ 0))

/-- Everything a write of a name does to reads of names (R31, R32). -/
theorem rfRead_rfWrite (k' : RegOrFlag) :
    rfRead (rfWrite s k n) k' = if k' = k then received k n else rfRead s k' := by
  cases k <;> cases k' <;> simp [State.getReg_setReg, State.getFlag_setFlag, received] <;>
    split <;> simp_all

theorem ip_rfWrite : (rfWrite s k n).ip = if k = .reg .ip then wrap8 n else s.ip := by
  cases k with
  | reg r => cases r <;> simp [State.setReg]
  | flag f => simp

theorem sp_rfWrite : (rfWrite s k n).sp = if k = .reg .sp then wrap8 n else s.sp := by
  cases k with
  | reg r => cases r <;> simp [State.setReg]
  | flag f => simp
end rfWrite

/-- The engine's end of an instruction changes no name but `ip`. -/
theorem rfRead_retire (k : RegOrFlag) (h : k ≠ .reg .ip) : rfRead (s.retire t) k = rfRead t k := by
  cases k with
  | reg r => simp [State.getReg_retire s t r (fun e => h (e ▸ rfl))]
  | flag f => simp

@[simp] theorem rfRead_store (a : Addr) (v : Byte) (k : RegOrFlag) :
    rfRead (s.store a v) k = rfRead s k := by cases k <;> simp

@[simp] theorem rfRead_endRun (how : Run) (k : RegOrFlag) : rfRead (s.endRun how) k = rfRead s k := by
  cases k <;> simp

/-- Everything an assignment can do: it always completes. -/
theorem assign_eq (k : RegOrFlag) (n : Int) : assign k n s = .next (s.retire (rfWrite s k n)) := rfl

/-- Everything a binary operation can do: complete with the value, or raise the operation's fault. -/
theorem binary_cases {f : Int → Int → Except FaultCause Int} {o : Operand} {k : RegOrFlag}
    (h : binary f o k s = .next t) :
    (∃ n, f (rfRead s k) (val s o) = .ok n ∧ t = s.retire (rfWrite s k n)) ∨
      (∃ cause, f (rfRead s k) (val s o) = .error cause ∧ t = s.endRun (.faulted cause)) := by
  unfold binary at h
  split at h
  · rename_i n hn
    exact .inl ⟨n, hn, (Host.Outcome.next.inj h).symm⟩
  · rename_i c hc
    exact .inr ⟨c, hc, (Host.Outcome.next.inj h).symm⟩

end Machine
end Sys2Proof
end

