-- ==== Sys2Proof/Laws/Ops.lean ====
section
/-! SUPPORT. One lemma per shared operation that says everything it can answer (spec/60_exceptions.md
R231; 40_engine_and_operands.md R201 to R206, R212; 45 to 48). -/

namespace Sys2Proof.Machine

variable (s : State) {t : State}

/-- A fault ends the run and does nothing else (R231). -/
theorem raise_eq (cause : FaultCause) : raise cause s = .next (s.endRun (.faulted cause)) := rfl

/-- A unary operation always completes with its value in the accumulator (R212). -/
theorem unary_eq (f : Int → Int) (o : Operand) :
    unary f o s = .next (s.retire (rfWrite s accumulator (f (val s o)))) := rfl

/-- A binary operation whose value exists completes with it (R212). -/
theorem binary_ok {f : Int → Int → Except FaultCause Int} {o : Operand} {k : RegOrFlag} {n : Int}
    (h : f (rfRead s k) (val s o) = .ok n) : binary f o k s = .next (s.retire (rfWrite s k n)) := by
  simp only [binary, h, assign_eq]

/-- A binary operation that faults changes nothing but the end of the run (R231, R212). -/
theorem binary_error {f : Int → Int → Except FaultCause Int} {o : Operand} {k : RegOrFlag}
    {cause : FaultCause} (h : f (rfRead s k) (val s o) = .error cause) :
    binary f o k s = .next (s.endRun (.faulted cause)) := by
  simp only [binary, h, raise_eq]

/-- Reading a byte: with no input nothing happens, else the first byte is removed and written. -/
theorem getInto_cases {k : RegOrFlag} (h : getInto k s = .next t) :
    (s.input = [] ∧ t = s) ∨
      ∃ v rest, s.input = v :: rest ∧
        t = s.retire (rfWrite { s with input := rest } k (uint v)) := by
  unfold getInto at h
  split at h
  · rename_i e
    exact .inl ⟨e, (Host.Outcome.next.inj h).symm⟩
  · rename_i v rest e
    exact .inr ⟨v, rest, e, (Host.Outcome.next.inj h).symm⟩

/-- Writing a byte always completes (R39). -/
theorem putByte_eq (v : Byte) :
    putByte v s = .next (s.retire { s with output := s.output ++ [v] }) := rfl

/-- A store always completes (R53). -/
theorem storeAt_eq (o : Operand) (v : Byte) :
    storeAt o v s = .next (s.retire (s.store (addrOf (val s o)) v)) := rfl

/-- A load always completes (R52). -/
theorem loadInto_eq (o : Operand) (k : RegOrFlag) :
    loadInto o k s = .next (s.retire (rfWrite s k (uint (s.mem.read (addrOf (val s o)))))) := rfl

/-- A test always completes (R216). -/
theorem complete_settest_eq (n : Int) :
    complete s (settest n s) = .next (s.retire (settest n s)) := rfl

/-- A jump always completes (R180). -/
theorem jumpTo_eq (n : Int) : jumpTo n s = .next (s.retire { s with ip := wrap8 n }) := rfl

/-- A conditional jump jumps or only advances (R205). -/
theorem jumpIf_eq (p : Bool) (n : Int) :
    jumpIf p n s = .next (s.retire { s with ip := if p then wrap8 n else s.ip }) := by
  cases p <;> rfl

/-- A push always completes (R192). -/
theorem pushValue_eq (v : Byte) :
    pushValue v s = .next (s.retire ({ s with sp := s.sp - 1 }.store (s.sp - 1) v)) := rfl

/-- A pop always completes (R195). -/
theorem popInto_eq (k : RegOrFlag) :
    popInto k s = .next (s.retire
      { rfWrite s k (uint (s.mem.read s.sp)) with
        sp := (rfWrite s k (uint (s.mem.read s.sp))).sp + 1 }) := rfl

/-! ### The engine -/

/-- One micro-step of an empty or incomplete buffer: fetch, then decode what stands (R201, R202). -/
theorem microStep_incomplete (h : decodeInstruction s.buf = .incomplete) :
    microStep s = decodeAttempt (fetchByte s) := by
  simp only [microStep, h]

/-- A buffer that holds an instruction is dispatched without a fetch (R244). -/
theorem step_instr {i : Instr} (hr : s.run = .running) (h : decodeInstruction s.buf = .instr i) :
    step s = exec i s := by
  simp only [step, hr, runInstruction, Config.maxIlen, accumulate, microStep, h]

/-- A byte from 100 up has no row, and every other byte has one (R76, R80). -/
theorem rowOf_eq_none {op : Nat} : rowOf op = none ↔ 100 ≤ op := by
  constructor
  · intro h
    by_contra hc
    exact (by decide : ∀ n < 100, rowOf n ≠ none) op (by omega) h
  · intro h
    unfold rowOf
    split <;> first | omega | rfl

/-- A number of operand bytes other than the row's is "incomplete" (R78). -/
theorem decodeInstruction_incomplete {op : Byte} {operands : List Byte} {row : Row}
    (hr : rowOf (uint op) = some row) (h : operands.length ≠ row.operandBytes) :
    decodeInstruction (op :: operands) = .incomplete := by
  simp only [decodeInstruction, hr]
  cases row <;> rcases operands with _ | ⟨x, _ | ⟨y, _ | ⟨z, r⟩⟩⟩ <;>
    first | rfl | (exfalso; simp [Row.operandBytes] at h)

/-- The row's number of operand bytes decodes or names a bad register (R78, R81). -/
theorem decodeInstruction_complete {op : Byte} {operands : List Byte} {row : Row}
    (hr : rowOf (uint op) = some row) (h : operands.length = row.operandBytes) :
    (∃ i, decodeInstruction (op :: operands) = .instr i) ∨
      decodeInstruction (op :: operands) = .badRegisterIndex := by
  simp only [decodeInstruction, hr]
  cases row <;> rcases operands with _ | ⟨x, _ | ⟨y, _ | ⟨z, r⟩⟩⟩ <;>
    first
    | (exfalso; simp [Row.operandBytes] at h; done)
    | (simp only [Row.decode, withName]; (repeat' split) <;> simp)

/-- One step of the machine the host reads is `step`. -/
theorem core_step_eq : core.step s = step s := rfl

end Sys2Proof.Machine
end

