-- ==== Sys2Proof/Laws/PerInstr.lean ====
section
/-! SUPPORT. Statements made for every instruction. -/

namespace Sys2Proof.Laws

/-- The bytes of an instruction are its opcode and as many operand bytes as the opcode map gives it
(30_encoding.md R70, R71): the length is fixed by the opcode, whatever the operands. -/
def EncodedLength.Statement (i : Instr) : Prop :=
  ∃ op operands, encode i = op :: operands ∧ operandLength op = some operands.length

theorem EncodedLength.halt :
    EncodedLength.Statement .halt := ⟨_, _, rfl, rfl⟩
theorem EncodedLength.getc :
    EncodedLength.Statement .getc := ⟨_, _, rfl, rfl⟩
theorem EncodedLength.getcr (k : RegOrFlag) :
    EncodedLength.Statement (.getcr k) := ⟨_, _, rfl, rfl⟩
theorem EncodedLength.putc :
    EncodedLength.Statement .putc := ⟨_, _, rfl, rfl⟩
theorem EncodedLength.putci (n : Int) :
    EncodedLength.Statement (.putci n) := ⟨_, _, rfl, rfl⟩
theorem EncodedLength.not :
    EncodedLength.Statement .not := ⟨_, _, rfl, rfl⟩
theorem EncodedLength.notr (k : RegOrFlag) :
    EncodedLength.Statement (.notr k) := ⟨_, _, rfl, rfl⟩
theorem EncodedLength.neg :
    EncodedLength.Statement .neg := ⟨_, _, rfl, rfl⟩
theorem EncodedLength.negr (k : RegOrFlag) :
    EncodedLength.Statement (.negr k) := ⟨_, _, rfl, rfl⟩
theorem EncodedLength.popcount :
    EncodedLength.Statement .popcount := ⟨_, _, rfl, rfl⟩
theorem EncodedLength.popcountr (k : RegOrFlag) :
    EncodedLength.Statement (.popcountr k) := ⟨_, _, rfl, rfl⟩
theorem EncodedLength.clz :
    EncodedLength.Statement .clz := ⟨_, _, rfl, rfl⟩
theorem EncodedLength.clzr (k : RegOrFlag) :
    EncodedLength.Statement (.clzr k) := ⟨_, _, rfl, rfl⟩
theorem EncodedLength.add :
    EncodedLength.Statement .add := ⟨_, _, rfl, rfl⟩
theorem EncodedLength.addi (n : Int) :
    EncodedLength.Statement (.addi n) := ⟨_, _, rfl, rfl⟩
theorem EncodedLength.addr (k : RegOrFlag) :
    EncodedLength.Statement (.addr k) := ⟨_, _, rfl, rfl⟩
theorem EncodedLength.addrr (k1 k2 : RegOrFlag) :
    EncodedLength.Statement (.addrr k1 k2) := ⟨_, _, rfl, rfl⟩
theorem EncodedLength.addir (n : Int) (k : RegOrFlag) :
    EncodedLength.Statement (.addir n k) := ⟨_, _, rfl, rfl⟩
theorem EncodedLength.sub :
    EncodedLength.Statement .sub := ⟨_, _, rfl, rfl⟩
theorem EncodedLength.subi (n : Int) :
    EncodedLength.Statement (.subi n) := ⟨_, _, rfl, rfl⟩
theorem EncodedLength.subr (k : RegOrFlag) :
    EncodedLength.Statement (.subr k) := ⟨_, _, rfl, rfl⟩
theorem EncodedLength.subrr (k1 k2 : RegOrFlag) :
    EncodedLength.Statement (.subrr k1 k2) := ⟨_, _, rfl, rfl⟩
theorem EncodedLength.subir (n : Int) (k : RegOrFlag) :
    EncodedLength.Statement (.subir n k) := ⟨_, _, rfl, rfl⟩
theorem EncodedLength.mul :
    EncodedLength.Statement .mul := ⟨_, _, rfl, rfl⟩
theorem EncodedLength.muli (n : Int) :
    EncodedLength.Statement (.muli n) := ⟨_, _, rfl, rfl⟩
theorem EncodedLength.mulr (k : RegOrFlag) :
    EncodedLength.Statement (.mulr k) := ⟨_, _, rfl, rfl⟩
theorem EncodedLength.mulrr (k1 k2 : RegOrFlag) :
    EncodedLength.Statement (.mulrr k1 k2) := ⟨_, _, rfl, rfl⟩
theorem EncodedLength.mulir (n : Int) (k : RegOrFlag) :
    EncodedLength.Statement (.mulir n k) := ⟨_, _, rfl, rfl⟩
theorem EncodedLength.div :
    EncodedLength.Statement .div := ⟨_, _, rfl, rfl⟩
theorem EncodedLength.divi (n : Int) :
    EncodedLength.Statement (.divi n) := ⟨_, _, rfl, rfl⟩
theorem EncodedLength.divr (k : RegOrFlag) :
    EncodedLength.Statement (.divr k) := ⟨_, _, rfl, rfl⟩
theorem EncodedLength.divrr (k1 k2 : RegOrFlag) :
    EncodedLength.Statement (.divrr k1 k2) := ⟨_, _, rfl, rfl⟩
theorem EncodedLength.divir (n : Int) (k : RegOrFlag) :
    EncodedLength.Statement (.divir n k) := ⟨_, _, rfl, rfl⟩
theorem EncodedLength.mod :
    EncodedLength.Statement .mod := ⟨_, _, rfl, rfl⟩
theorem EncodedLength.modi (n : Int) :
    EncodedLength.Statement (.modi n) := ⟨_, _, rfl, rfl⟩
theorem EncodedLength.modr (k : RegOrFlag) :
    EncodedLength.Statement (.modr k) := ⟨_, _, rfl, rfl⟩
theorem EncodedLength.modrr (k1 k2 : RegOrFlag) :
    EncodedLength.Statement (.modrr k1 k2) := ⟨_, _, rfl, rfl⟩
theorem EncodedLength.modir (n : Int) (k : RegOrFlag) :
    EncodedLength.Statement (.modir n k) := ⟨_, _, rfl, rfl⟩
theorem EncodedLength.or :
    EncodedLength.Statement .or := ⟨_, _, rfl, rfl⟩
theorem EncodedLength.ori (n : Int) :
    EncodedLength.Statement (.ori n) := ⟨_, _, rfl, rfl⟩
theorem EncodedLength.orr (k : RegOrFlag) :
    EncodedLength.Statement (.orr k) := ⟨_, _, rfl, rfl⟩
theorem EncodedLength.orrr (k1 k2 : RegOrFlag) :
    EncodedLength.Statement (.orrr k1 k2) := ⟨_, _, rfl, rfl⟩
theorem EncodedLength.orir (n : Int) (k : RegOrFlag) :
    EncodedLength.Statement (.orir n k) := ⟨_, _, rfl, rfl⟩
theorem EncodedLength.and :
    EncodedLength.Statement .and := ⟨_, _, rfl, rfl⟩
theorem EncodedLength.andi (n : Int) :
    EncodedLength.Statement (.andi n) := ⟨_, _, rfl, rfl⟩
theorem EncodedLength.andr (k : RegOrFlag) :
    EncodedLength.Statement (.andr k) := ⟨_, _, rfl, rfl⟩
theorem EncodedLength.andrr (k1 k2 : RegOrFlag) :
    EncodedLength.Statement (.andrr k1 k2) := ⟨_, _, rfl, rfl⟩
theorem EncodedLength.andir (n : Int) (k : RegOrFlag) :
    EncodedLength.Statement (.andir n k) := ⟨_, _, rfl, rfl⟩
theorem EncodedLength.xor :
    EncodedLength.Statement .xor := ⟨_, _, rfl, rfl⟩
theorem EncodedLength.xori (n : Int) :
    EncodedLength.Statement (.xori n) := ⟨_, _, rfl, rfl⟩
theorem EncodedLength.xorr (k : RegOrFlag) :
    EncodedLength.Statement (.xorr k) := ⟨_, _, rfl, rfl⟩
theorem EncodedLength.xorrr (k1 k2 : RegOrFlag) :
    EncodedLength.Statement (.xorrr k1 k2) := ⟨_, _, rfl, rfl⟩
theorem EncodedLength.xorir (n : Int) (k : RegOrFlag) :
    EncodedLength.Statement (.xorir n k) := ⟨_, _, rfl, rfl⟩
theorem EncodedLength.shl :
    EncodedLength.Statement .shl := ⟨_, _, rfl, rfl⟩
theorem EncodedLength.shli (n : Int) :
    EncodedLength.Statement (.shli n) := ⟨_, _, rfl, rfl⟩
theorem EncodedLength.shlr (k : RegOrFlag) :
    EncodedLength.Statement (.shlr k) := ⟨_, _, rfl, rfl⟩
theorem EncodedLength.shlrr (k1 k2 : RegOrFlag) :
    EncodedLength.Statement (.shlrr k1 k2) := ⟨_, _, rfl, rfl⟩
theorem EncodedLength.shlir (n : Int) (k : RegOrFlag) :
    EncodedLength.Statement (.shlir n k) := ⟨_, _, rfl, rfl⟩
theorem EncodedLength.shr :
    EncodedLength.Statement .shr := ⟨_, _, rfl, rfl⟩
theorem EncodedLength.shri (n : Int) :
    EncodedLength.Statement (.shri n) := ⟨_, _, rfl, rfl⟩
theorem EncodedLength.shrr (k : RegOrFlag) :
    EncodedLength.Statement (.shrr k) := ⟨_, _, rfl, rfl⟩
theorem EncodedLength.shrrr (k1 k2 : RegOrFlag) :
    EncodedLength.Statement (.shrrr k1 k2) := ⟨_, _, rfl, rfl⟩
theorem EncodedLength.shrir (n : Int) (k : RegOrFlag) :
    EncodedLength.Statement (.shrir n k) := ⟨_, _, rfl, rfl⟩
theorem EncodedLength.storei (n : Int) :
    EncodedLength.Statement (.storei n) := ⟨_, _, rfl, rfl⟩
theorem EncodedLength.storer (k : RegOrFlag) :
    EncodedLength.Statement (.storer k) := ⟨_, _, rfl, rfl⟩
theorem EncodedLength.storeii (n1 n2 : Int) :
    EncodedLength.Statement (.storeii n1 n2) := ⟨_, _, rfl, rfl⟩
theorem EncodedLength.storeri (k : RegOrFlag) (n : Int) :
    EncodedLength.Statement (.storeri k n) := ⟨_, _, rfl, rfl⟩
theorem EncodedLength.storerr (k1 k2 : RegOrFlag) :
    EncodedLength.Statement (.storerr k1 k2) := ⟨_, _, rfl, rfl⟩
theorem EncodedLength.storeir (n : Int) (k : RegOrFlag) :
    EncodedLength.Statement (.storeir n k) := ⟨_, _, rfl, rfl⟩
theorem EncodedLength.loadi (n : Int) :
    EncodedLength.Statement (.loadi n) := ⟨_, _, rfl, rfl⟩
theorem EncodedLength.loadr (k : RegOrFlag) :
    EncodedLength.Statement (.loadr k) := ⟨_, _, rfl, rfl⟩
theorem EncodedLength.loadir (n : Int) (k : RegOrFlag) :
    EncodedLength.Statement (.loadir n k) := ⟨_, _, rfl, rfl⟩
theorem EncodedLength.loadrr (k1 k2 : RegOrFlag) :
    EncodedLength.Statement (.loadrr k1 k2) := ⟨_, _, rfl, rfl⟩
theorem EncodedLength.movi (n : Int) :
    EncodedLength.Statement (.movi n) := ⟨_, _, rfl, rfl⟩
theorem EncodedLength.movr (k : RegOrFlag) :
    EncodedLength.Statement (.movr k) := ⟨_, _, rfl, rfl⟩
theorem EncodedLength.movrr (k1 k2 : RegOrFlag) :
    EncodedLength.Statement (.movrr k1 k2) := ⟨_, _, rfl, rfl⟩
theorem EncodedLength.movir (n : Int) (k : RegOrFlag) :
    EncodedLength.Statement (.movir n k) := ⟨_, _, rfl, rfl⟩
theorem EncodedLength.testr (k : RegOrFlag) :
    EncodedLength.Statement (.testr k) := ⟨_, _, rfl, rfl⟩
theorem EncodedLength.cmpi (n : Int) :
    EncodedLength.Statement (.cmpi n) := ⟨_, _, rfl, rfl⟩
theorem EncodedLength.cmpr (k : RegOrFlag) :
    EncodedLength.Statement (.cmpr k) := ⟨_, _, rfl, rfl⟩
theorem EncodedLength.jmpi (n : Int) :
    EncodedLength.Statement (.jmpi n) := ⟨_, _, rfl, rfl⟩
theorem EncodedLength.jmpr (k : RegOrFlag) :
    EncodedLength.Statement (.jmpr k) := ⟨_, _, rfl, rfl⟩
theorem EncodedLength.joi (n : Int) :
    EncodedLength.Statement (.joi n) := ⟨_, _, rfl, rfl⟩
theorem EncodedLength.jnoi (n : Int) :
    EncodedLength.Statement (.jnoi n) := ⟨_, _, rfl, rfl⟩
theorem EncodedLength.jzi (n : Int) :
    EncodedLength.Statement (.jzi n) := ⟨_, _, rfl, rfl⟩
theorem EncodedLength.jnzi (n : Int) :
    EncodedLength.Statement (.jnzi n) := ⟨_, _, rfl, rfl⟩
theorem EncodedLength.jpei (n : Int) :
    EncodedLength.Statement (.jpei n) := ⟨_, _, rfl, rfl⟩
theorem EncodedLength.jpoi (n : Int) :
    EncodedLength.Statement (.jpoi n) := ⟨_, _, rfl, rfl⟩
theorem EncodedLength.jli (n : Int) :
    EncodedLength.Statement (.jli n) := ⟨_, _, rfl, rfl⟩
theorem EncodedLength.jlei (n : Int) :
    EncodedLength.Statement (.jlei n) := ⟨_, _, rfl, rfl⟩
theorem EncodedLength.jgei (n : Int) :
    EncodedLength.Statement (.jgei n) := ⟨_, _, rfl, rfl⟩
theorem EncodedLength.jazi (n : Int) :
    EncodedLength.Statement (.jazi n) := ⟨_, _, rfl, rfl⟩
theorem EncodedLength.push :
    EncodedLength.Statement .push := ⟨_, _, rfl, rfl⟩
theorem EncodedLength.pushi (n : Int) :
    EncodedLength.Statement (.pushi n) := ⟨_, _, rfl, rfl⟩
theorem EncodedLength.pushr (k : RegOrFlag) :
    EncodedLength.Statement (.pushr k) := ⟨_, _, rfl, rfl⟩
theorem EncodedLength.pop :
    EncodedLength.Statement .pop := ⟨_, _, rfl, rfl⟩
theorem EncodedLength.popr (k : RegOrFlag) :
    EncodedLength.Statement (.popr k) := ⟨_, _, rfl, rfl⟩
theorem EncodedLength.calli (n : Int) :
    EncodedLength.Statement (.calli n) := ⟨_, _, rfl, rfl⟩
theorem EncodedLength.callr (k : RegOrFlag) :
    EncodedLength.Statement (.callr k) := ⟨_, _, rfl, rfl⟩
theorem EncodedLength.ret :
    EncodedLength.Statement .ret := ⟨_, _, rfl, rfl⟩

end Sys2Proof.Laws
end

