-- ==== Sys2Proof/Laws/Terms.lean ====
section
/-! SUPPORT. The terms of Safety.lean beside the operations of the model. -/

namespace Sys2Proof.Machine

variable (s : State)

/-- What a name reads as is the model's read (R31). -/
theorem nameValue_eq (k : RegOrFlag) : nameValue s k = rfRead s k := by
  cases k with
  | reg r => cases r <;> rfl
  | flag f => cases f <;> rfl

theorem operandValue_eq (o : Operand) : operandValue s o = val s o := by
  cases o with
  | imm n => rfl
  | reg k => exact nameValue_eq s k

/-- What a name receives is what the model's write leaves in it (R32). -/
theorem receivedValue_eq (k : RegOrFlag) (n : Int) : receivedValue k n = received k n := by
  cases k with
  | reg r => rfl
  | flag f =>
    simp only [receivedValue, received, boolInt, wrap8]
    split <;> simp_all

theorem received_congr (k : RegOrFlag) {n m : Int} (h : wrap8 n = wrap8 m) :
    received k n = received k m := by
  cases k <;> simp [received, h]

/-- A name reads a value in range (R31). -/
theorem rfRead_bounds (k : RegOrFlag) : -128 ≤ rfRead s k ∧ rfRead s k ≤ 127 := by
  cases k with
  | reg r => exact sint_bounds _
  | flag f =>
    simp only [rfRead_flag, boolInt]
    split <;> omega

/-- Assigning a value, or any value congruent to it, is the write the statements speak of. -/
theorem writes_assign (k : RegOrFlag) (n m : Int) (h : wrap8 n = wrap8 m) :
    Writes s k m (assign k n s) := by
  refine ⟨_, rfl, ?_, ?_, ?_, ?_, ?_, ?_⟩
  · intro hk
    rw [nameValue_eq, rfRead_retire _ _ _ hk, rfRead_rfWrite, if_pos rfl, receivedValue_eq,
      received_congr _ h]
  · intro k' hk' hne
    simp only [List.mem_singleton] at hne
    rw [nameValue_eq, nameValue_eq, rfRead_retire _ _ _ hk', rfRead_rfWrite, if_neg hne]
  · simp only [State.ip_retire, ip_rfWrite, h, nextIp]
    split
    · rfl
    · simp
  · intro a
    simp
  · simp [ChannelsKept]
  · simp [RunGoesOn]

/-- Ending a run is the end the statements speak of. -/
theorem ends_endRun (how : Run) : Ends s how (.next (s.endRun how)) := by
  refine ⟨_, rfl, rfl, rfl, ?_, ?_, ?_⟩
  · intro k _ _
    simp [nameValue_eq]
  · intro a
    simp
  · simp [ChannelsKept]

/-! ### Indices -/

theorem indexByte_eq (k : RegOrFlag) : k.indexByte = indexCell k := by
  cases k with
  | reg r => cases r <;> rfl
  | flag f => cases f <;> rfl

theorem uint_indexCell (k : RegOrFlag) : uint (indexCell k) = combinedIndex k := by
  cases k with
  | reg r => cases r <;> rfl
  | flag f => cases f <;> rfl

theorem ofIndex_combinedIndex (k : RegOrFlag) : RegOrFlag.ofIndex (combinedIndex k) = some k := by
  cases k with
  | reg r => cases r <;> rfl
  | flag f => cases f <;> rfl

/-- An index from 12 up names nothing (R81). -/
theorem ofIndex_eq_none {n : Nat} (h : 12 ≤ n) : RegOrFlag.ofIndex n = none := by
  unfold RegOrFlag.ofIndex
  split <;> first | omega | rfl

/-- The packed byte holds the first index above the second (R74). -/
theorem packByte_eq (k1 k2 : RegOrFlag) :
    packByte k1 k2 = BitVec.ofNat 8 (16 * combinedIndex k1 + combinedIndex k2) := by
  rcases k1 with (_ | _ | _ | _ | _ | _ | _) | (_ | _ | _ | _ | _) <;>
    rcases k2 with (_ | _ | _ | _ | _ | _ | _) | (_ | _ | _ | _ | _) <;> rfl

theorem highNibble_pack (k1 k2 : RegOrFlag) :
    highNibble (BitVec.ofNat 8 (16 * combinedIndex k1 + combinedIndex k2)) = combinedIndex k1 := by
  rcases k1 with (_ | _ | _ | _ | _ | _ | _) | (_ | _ | _ | _ | _) <;>
    rcases k2 with (_ | _ | _ | _ | _ | _ | _) | (_ | _ | _ | _ | _) <;> rfl

theorem lowNibble_pack (k1 k2 : RegOrFlag) :
    lowNibble (BitVec.ofNat 8 (16 * combinedIndex k1 + combinedIndex k2)) = combinedIndex k2 := by
  rcases k1 with (_ | _ | _ | _ | _ | _ | _) | (_ | _ | _ | _ | _) <;>
    rcases k2 with (_ | _ | _ | _ | _ | _ | _) | (_ | _ | _ | _ | _) <;> rfl

end Sys2Proof.Machine
end

