-- ==== Sys2Proof/Tests/Slice0.lean ====
section
/-! SUPPORT. The model's own tests: well-formedness, a word of every instruction, steps on the spec's
vectors (95_test_vectors.md), and a witness for the hypotheses of every statement that has any. -/

namespace Sys2Proof.Tests

open Sys2Proof.Machine

/-- A machine with the bytes at `ip`. -/
def placed (bytes : List Int) (s : State) : State :=
  { s with mem := copyImage s.ip.toNat bytes s.mem }

/-- The next state of an answer. -/
def nextOf : Result → Option State
  | .next t => some t
  | .fault _ => none
  | .refused _ => none

/-- One step on the bytes at `ip`, seen through `f`. -/
def stepOn {α : Type} (bytes : List Int) (s : State) (f : State → α) : Option α :=
  (nextOf (step (placed bytes s))).map f

/-! ### Well-formedness (30_encoding.md R72) -/

theorem test_wellFormed_immediate_too_small :
    (Instr.addi (-129)).wellFormed = false ∧ (Instr.addi (-128)).wellFormed = true := by decide

theorem test_wellFormed_immediate_too_large :
    (Instr.storeii 0 128).wellFormed = false ∧ (Instr.storeii 0 127).wellFormed = true ∧
    (Instr.movir 128 (.reg .a)).wellFormed = false := by decide

/-! ### Decoding (30_encoding.md R70 to R83): bytes written out from the opcode map and the shapes,
operand bytes chosen by hand over all twelve indices and both signs -/

/-- These bytes are that instruction's, both ways. -/
abbrev DecodesTo (bytes : List Byte) (i : Instr) : Prop :=
  decodeInstruction bytes = .instr i ∧ encode i = bytes

/-- The twelve register operand bytes (R20, R27, R73). -/
theorem test_decode_indices :
    DecodesTo [74, 0] (.movr (.reg .a)) ∧ DecodesTo [74, 1] (.movr (.reg .b)) ∧
    DecodesTo [74, 2] (.movr (.reg .c)) ∧ DecodesTo [74, 3] (.movr (.reg .d)) ∧
    DecodesTo [74, 4] (.movr (.reg .ip)) ∧ DecodesTo [74, 5] (.movr (.reg .sb)) ∧
    DecodesTo [74, 6] (.movr (.reg .sp)) ∧ DecodesTo [74, 7] (.movr (.flag .cf)) ∧
    DecodesTo [74, 8] (.movr (.flag .pf)) ∧ DecodesTo [74, 9] (.movr (.flag .zf)) ∧
    DecodesTo [74, 10] (.movr (.flag .sf)) ∧ DecodesTo [74, 11] (.movr (.flag .of)) := by decide

theorem test_decode_halt_io :
    DecodesTo [0] .halt ∧
    DecodesTo [1] .getc ∧
    DecodesTo [2, 2] (.getcr (.reg .c)) ∧
    DecodesTo [3] .putc ∧
    DecodesTo [4, 22] (.putci 22) := by decide

theorem test_decode_unary :
    DecodesTo [5] .not ∧
    DecodesTo [6, 6] (.notr (.reg .sp)) ∧
    DecodesTo [7] .neg ∧
    DecodesTo [8, 8] (.negr (.flag .pf)) ∧
    DecodesTo [9] .popcount ∧
    DecodesTo [10, 10] (.popcountr (.flag .sf)) ∧
    DecodesTo [11] .clz ∧
    DecodesTo [12, 0] (.clzr (.reg .a)) := by decide

theorem test_decode_arith :
    DecodesTo [13] .add ∧
    DecodesTo [14, 136] (.addi (-120)) ∧
    DecodesTo [15, 3] (.addr (.reg .d)) ∧
    DecodesTo [16, 75] (.addrr (.reg .ip) (.flag .of)) ∧
    DecodesTo [17, 247, 5] (.addir (-9) (.reg .sb)) ∧
    DecodesTo [18] .sub ∧
    DecodesTo [19, 65] (.subi 65) ∧
    DecodesTo [20, 8] (.subr (.flag .pf)) ∧
    DecodesTo [21, 144] (.subrr (.flag .zf) (.reg .a)) ∧
    DecodesTo [22, 176, 10] (.subir (-80) (.flag .sf)) ∧
    DecodesTo [23] .mul ∧
    DecodesTo [24, 250] (.muli (-6)) ∧
    DecodesTo [25, 1] (.mulr (.reg .b)) ∧
    DecodesTo [26, 33] (.mulrr (.reg .c) (.reg .b)) ∧
    DecodesTo [27, 105, 3] (.mulir 105 (.reg .d)) ∧
    DecodesTo [28] .div ∧
    DecodesTo [29, 179] (.divi (-77)) ∧
    DecodesTo [30, 6] (.divr (.reg .sp)) ∧
    DecodesTo [31, 114] (.divrr (.flag .cf) (.reg .c)) ∧
    DecodesTo [32, 34, 8] (.divir 34 (.flag .pf)) ∧
    DecodesTo [33] .mod ∧
    DecodesTo [34, 108] (.modi 108) ∧
    DecodesTo [35, 11] (.modr (.flag .of)) ∧
    DecodesTo [36, 3] (.modrr (.reg .a) (.reg .d)) ∧
    DecodesTo [37, 219, 1] (.modir (-37) (.reg .b)) := by decide

theorem test_decode_bitwise :
    DecodesTo [38] .or ∧
    DecodesTo [39, 37] (.ori 37) ∧
    DecodesTo [40, 4] (.orr (.reg .ip)) ∧
    DecodesTo [41, 84] (.orrr (.reg .sb) (.reg .ip)) ∧
    DecodesTo [42, 148, 6] (.orir (-108) (.reg .sp)) ∧
    DecodesTo [43] .and ∧
    DecodesTo [44, 222] (.andi (-34)) ∧
    DecodesTo [45, 9] (.andr (.flag .zf)) ∧
    DecodesTo [46, 165] (.andrr (.flag .sf) (.reg .sb)) ∧
    DecodesTo [47, 77, 11] (.andir 77 (.flag .of)) ∧
    DecodesTo [48] .xor ∧
    DecodesTo [49, 151] (.xori (-105)) ∧
    DecodesTo [50, 2] (.xorr (.reg .c)) ∧
    DecodesTo [51, 54] (.xorrr (.reg .d) (.reg .sp)) ∧
    DecodesTo [52, 6, 4] (.xorir 6 (.reg .ip)) := by decide

theorem test_decode_shift :
    DecodesTo [53] .shl ∧
    DecodesTo [54, 80] (.shli 80) ∧
    DecodesTo [55, 7] (.shlr (.flag .cf)) ∧
    DecodesTo [56, 135] (.shlrr (.flag .pf) (.flag .cf)) ∧
    DecodesTo [57, 191, 9] (.shlir (-65) (.flag .zf)) ∧
    DecodesTo [58] .shr ∧
    DecodesTo [59, 9] (.shri 9) ∧
    DecodesTo [60, 0] (.shrr (.reg .a)) ∧
    DecodesTo [61, 24] (.shrrr (.reg .b) (.flag .pf)) ∧
    DecodesTo [62, 120, 2] (.shrir 120 (.reg .c)) := by decide

theorem test_decode_memory :
    DecodesTo [63, 157] (.storei (-99)) ∧
    DecodesTo [64, 4] (.storer (.reg .ip)) ∧
    DecodesTo [65, 231, 124] (.storeii (-25) 124) ∧
    DecodesTo [66, 6, 12] (.storeri (.reg .sp) 12) ∧
    DecodesTo [67, 114] (.storerr (.flag .cf) (.reg .c)) ∧
    DecodesTo [68, 86, 8] (.storeir 86 (.flag .pf)) ∧
    DecodesTo [69, 123] (.loadi 123) ∧
    DecodesTo [70, 10] (.loadr (.flag .sf)) ∧
    DecodesTo [71, 197, 11] (.loadir (-59) (.flag .of)) ∧
    DecodesTo [72, 3] (.loadrr (.reg .a) (.reg .d)) := by decide

theorem test_decode_move :
    DecodesTo [73, 15] (.movi 15) ∧
    DecodesTo [74, 2] (.movr (.reg .c)) ∧
    DecodesTo [75, 54] (.movrr (.reg .d) (.reg .sp)) ∧
    DecodesTo [76, 126, 4] (.movir 126 (.reg .ip)) := by decide

theorem test_decode_flags :
    DecodesTo [77, 5] (.testr (.reg .sb)) ∧
    DecodesTo [78, 200] (.cmpi (-56)) ∧
    DecodesTo [79, 7] (.cmpr (.flag .cf)) := by decide

theorem test_decode_control :
    DecodesTo [80, 18] (.jmpi 18) ∧
    DecodesTo [81, 9] (.jmpr (.flag .zf)) ∧
    DecodesTo [82, 92] (.joi 92) ∧
    DecodesTo [83, 129] (.jnoi (-127)) ∧
    DecodesTo [84, 166] (.jzi (-90)) ∧
    DecodesTo [85, 203] (.jnzi (-53)) ∧
    DecodesTo [86, 240] (.jpei (-16)) ∧
    DecodesTo [87, 21] (.jpoi 21) ∧
    DecodesTo [88, 58] (.jli 58) ∧
    DecodesTo [89, 95] (.jlei 95) ∧
    DecodesTo [90, 132] (.jgei (-124)) ∧
    DecodesTo [91, 169] (.jazi (-87)) := by decide

theorem test_decode_stack :
    DecodesTo [92] .push ∧
    DecodesTo [93, 243] (.pushi (-13)) ∧
    DecodesTo [94, 10] (.pushr (.flag .sf)) ∧
    DecodesTo [95] .pop ∧
    DecodesTo [96, 0] (.popr (.reg .a)) := by decide

theorem test_decode_call_ret :
    DecodesTo [97, 135] (.calli (-121)) ∧
    DecodesTo [98, 2] (.callr (.reg .c)) ∧
    DecodesTo [99] .ret := by decide

/-- Refusals by name (R78, R80, R81), and the first index of a packed byte in its high nibble (VE7). -/
theorem test_decode_refusals :
    decodeInstruction [] = .incomplete ∧ decodeInstruction [17] = .incomplete ∧
    decodeInstruction [17, 1] = .incomplete ∧ decodeInstruction [0, 0] = .incomplete ∧
    decodeInstruction [100] = .illegalOpcode 100 ∧ decodeInstruction [255] = .illegalOpcode 255 ∧
    decodeInstruction [2, 12] = .badRegisterIndex ∧ decodeInstruction [17, 0, 12] = .badRegisterIndex ∧
    decodeInstruction [66, 12, 0] = .badRegisterIndex ∧
    decodeInstruction [75, 0xC0] = .badRegisterIndex ∧
    decodeInstruction [75, 0x0C] = .badRegisterIndex ∧
    decodeInstruction [75, 0x12] = .instr (.movrr (.reg .b) (.reg .c)) := by decide

/-- A table word: the first byte in bits 7:0, then the second, then the third. -/
theorem test_decodeTableWord :
    decodeTableWord 8 0 = some .halt ∧ decodeTableWord 16 0x124B = some (.movrr (.reg .b) (.reg .c)) ∧
    decodeTableWord 24 0x2A6441 = some (.storeii 100 42) ∧ decodeTableWord 8 100 = none ∧
    decodeTableWord 16 0x0C02 = none := by decide

/-- The word placed for the next step is the one it runs: `movi 5`, then `storeii 100 42`. -/
theorem test_withFetchWord :
    (nextOf (step (State.reset.withFetchWord 16 0x0549))).map (fun t => (t.a, t.ip)) = some (5, 2) ∧
    (nextOf (step (State.reset.withFetchWord 24 0x2A6441))).map (fun t => (t.mem.read 100, t.ip)) =
      some (42, 3) := by decide

/-! ### Steps on the spec's vectors (95_test_vectors.md section 2) -/

/-- VG1, VG15, VG11, VG13, VG14, VG18. -/
theorem test_halt_io :
    stepOn [0] { State.reset with ip := 9 } (fun t => (t.run, t.ip)) = some (.halted, 9) ∧
    stepOn [3] { State.reset with a := 255 } (fun t => (t.output, t.ip)) = some ([255], 1) ∧
    stepOn [1] { State.reset with input := [200, 7] } (fun t => (t.a, t.input, t.ip)) =
      some (200, [7], 1) ∧
    stepOn [2, 9] { State.reset with zf := true, input := [0] } (fun t => (t.zf, t.input, t.ip)) =
      some (false, [], 2) ∧
    stepOn [1] State.reset (fun t => (t.run, t.buf, t.ip)) = some (.running, [1], 0) ∧
    stepOn [2, 4] { State.reset with input := [50] } (fun t => t.ip) = some 50 := by decide

/-- VU3, VU4, VU5, VU8, VU9, VU12. -/
theorem test_unary :
    stepOn [6, 1] { State.reset with a := 9, b := 5 } (fun t => (t.a.toInt, t.b, t.ip)) =
      some (-6, 5, 2) ∧
    stepOn [7] { State.reset with a := 128 } (fun t => t.a.toInt) = some (-128) ∧
    stepOn [9] { State.reset with a := 42 } (fun t => t.a) = some 3 ∧
    stepOn [11] { State.reset with a := 42 } (fun t => t.a) = some 2 ∧
    stepOn [11] State.reset (fun t => t.a) = some 8 ∧
    stepOn [6, 9] { State.reset with zf := true } (fun t => t.a.toInt) = some (-2) := by decide

/-- VA1, VA5, VA6, VA10, VA16, VA18: wraps, which operand is the destination. -/
theorem test_add_sub_mul :
    stepOn [13] { State.reset with a := 127 } (fun t => t.a.toInt) = some (-2) ∧
    stepOn [16, 18] { State.reset with b := 5, c := 253 } (fun t => (t.b, t.c)) = some (5, 2) ∧
    stepOn [16, 17] { State.reset with b := 70 } (fun t => t.b.toInt) = some (-116) ∧
    stepOn [20, 1] { State.reset with a := 3, b := 10 } (fun t => t.a.toInt) = some (-7) ∧
    stepOn [24, 20] { State.reset with a := 15 } (fun t => t.a) = some 44 ∧
    stepOn [26, 18] { State.reset with b := 255, c := 128 } (fun t => t.c.toInt) = some (-128) := by
  decide

/-- VA22, VA23, VA24, VA27, VA30, VA34: floored, and the precise fault. -/
theorem test_div_mod :
    stepOn [29, 2] { State.reset with a := 249 } (fun t => t.a.toInt) = some (-4) ∧
    stepOn [29, 254] { State.reset with a := 7 } (fun t => t.a.toInt) = some (-4) ∧
    stepOn [29, 255] { State.reset with a := 128 } (fun t => t.a.toInt) = some (-128) ∧
    stepOn [32, 0, 1] { State.reset with b := 5 } (fun t => (t.run, t.b, t.ip)) =
      some (.faulted .divideByZero, 5, 2) ∧
    stepOn [34, 254] { State.reset with a := 7 } (fun t => t.a.toInt) = some (-1) ∧
    stepOn [37, 10, 3] { State.reset with d := 255 } (fun t => t.d) = some 9 := by decide

/-- VA35, VA36, VA37, VG9, VG10: `ip` and a flag as operands. -/
theorem test_ip_and_flag_operands :
    stepOn [17, 1, 4] { State.reset with ip := 20 } (fun t => t.ip) = some 23 ∧
    stepOn [17, 5, 4] { State.reset with ip := 20 } (fun t => t.ip) = some 27 ∧
    stepOn [17, 1, 9] State.reset (fun t => (t.zf, t.ip)) = some (true, 3) ∧
    stepOn [76, 2, 4] State.reset (fun t => t.ip) = some 3 ∧
    stepOn [74, 4] { State.reset with ip := 10 } (fun t => (t.a, t.ip)) = some (11, 12) := by decide

/-- VB2, VB9, VB12, VB15. -/
theorem test_bitwise :
    stepOn [39, 15] { State.reset with a := 240 } (fun t => t.a.toInt) = some (-1) ∧
    stepOn [46, 18] { State.reset with b := 127, c := 128 } (fun t => t.c) = some 0 ∧
    stepOn [49, 255] { State.reset with a := 42 } (fun t => t.a.toInt) = some (-43) ∧
    stepOn [52, 1, 9] { State.reset with zf := true } (fun t => (t.zf, t.ip)) = some (false, 3) := by
  decide

/-- VH3, VH4, VH7, VH14, VH17, VH22. -/
theorem test_shifts :
    stepOn [53] { State.reset with a := 255 } (fun t => (t.run, t.a, t.ip)) =
      some (.faulted .negativeShiftCount, 255, 0) ∧
    stepOn [54, 1] { State.reset with a := 64 } (fun t => t.a.toInt) = some (-128) ∧
    stepOn [54, 8] { State.reset with a := 255 } (fun t => t.a) = some 0 ∧
    stepOn [59, 1] { State.reset with a := 128 } (fun t => t.a.toInt) = some (-64) ∧
    stepOn [59, 8] { State.reset with a := 251 } (fun t => t.a.toInt) = some (-1) ∧
    stepOn [60, 1] { State.reset with a := 8, b := 254 } (fun t => (t.run, t.ip)) =
      some (.faulted .negativeShiftCount, 1) := by decide

/-- VM2, VM8, VM9, VM11, VM13, VM16, VM18. -/
theorem test_store_load :
    stepOn [63, 255] { State.reset with a := 7 } (fun t => (t.mem.read 255, t.ip)) = some (7, 2) ∧
    stepOn [67, 18] { State.reset with b := 60, c := 255 } (fun t => t.mem.read 60) = some 255 ∧
    stepOn [67, 105] { State.reset with sp := 250, zf := true } (fun t => t.mem.read 250) = some 1 ∧
    stepOn [65, 1, 9] State.reset (fun t => (t.mem.read 0, t.mem.read 1, t.ip)) = some (65, 9, 3) ∧
    stepOn [70, 1] { State.reset with b := 255, mem := [(255, 66)] } (fun t => t.a) = some 66 ∧
    stepOn [71, 0, 0] State.reset (fun t => t.a) = some 71 ∧
    stepOn [71, 100, 4] { State.reset with mem := [(100, 30)] } (fun t => t.ip) = some 30 := by decide

/-- VF3, VF5, VF10, VF12, VF16, VF17, VF20. -/
theorem test_move_flags :
    stepOn [74, 8] { State.reset with pf := true } (fun t => t.a) = some 1 ∧
    stepOn [75, 10] { State.reset with a := 128 } (fun t => (t.sf, t.a)) = some (true, 128) ∧
    stepOn [77, 1] { State.reset with b := 7, pf := true, zf := true } (fun t => (t.pf, t.zf, t.sf)) =
      some (false, false, false) ∧
    stepOn [77, 9] { State.reset with zf := true } (fun t => (t.pf, t.zf, t.sf)) =
      some (false, false, false) ∧
    stepOn [78, 128] { State.reset with a := 127 } (fun t => (t.pf, t.zf, t.sf)) =
      some (true, false, false) ∧
    stepOn [78, 127] { State.reset with a := 128 } (fun t => (t.pf, t.zf, t.sf)) =
      some (false, false, true) ∧
    stepOn [79, 1] { State.reset with a := 100, b := 156 } (fun t => (t.pf, t.zf, t.sf)) =
      some (false, false, false) := by decide

/-- VG6, VJ2, VJ4, VJ5 to VJ7: a jump to its own last byte falls through. -/
theorem test_jumps :
    stepOn [80, 5] { State.reset with ip := 4 } (fun t => t.ip) = some 6 ∧
    stepOn [80, 200] { State.reset with ip := 10 } (fun t => t.ip) = some 200 ∧
    stepOn [81, 1] { State.reset with ip := 10, b := 255 } (fun t => t.ip) = some 255 ∧
    stepOn [81, 9] { State.reset with ip := 10, zf := true } (fun t => t.ip) = some 1 ∧
    stepOn [82, 50] { State.reset with ip := 10 } (fun t => t.ip) = some 12 ∧
    stepOn [82, 50] { State.reset with ip := 10, of := true } (fun t => t.ip) = some 50 := by decide

/-- VK2, VK4, VK5, VK7, VK8, VK10: the value is resolved first; `pop sp` goes up after the write. -/
theorem test_stack :
    stepOn [92] { State.reset with a := 249, sp := 240 } (fun t => (t.sp, t.mem.read 239)) =
      some (239, 249) ∧
    stepOn [94, 6] { State.reset with sp := 240 } (fun t => (t.sp, t.mem.read 239)) = some (239, 240) ∧
    stepOn [96, 1] { State.reset with sp := 255, mem := [(255, 42)] }
      (fun t => (t.b, t.sp, t.mem.read 255)) = some (42, 0, 42) ∧
    stepOn [96, 6] { State.reset with sp := 100, mem := [(100, 7)] } (fun t => t.sp) = some 8 ∧
    stepOn [96, 4] { State.reset with ip := 10, sp := 255, mem := [(255, 60)] }
      (fun t => (t.sp, t.ip)) = some (0, 60) ∧
    stepOn [95] State.reset (fun t => (t.a, t.sp)) = some (95, 1) := by decide

/-- VX1, VX3, VX4, VX5, VX9, VX11. -/
theorem test_faults :
    stepOn [97, 50] { State.reset with ip := 10, sp := 255 } (fun t => (t.run, t.sp, t.ip)) =
      some (.faulted (.unimplemented 97), 255, 11) ∧
    stepOn [99] { State.reset with ip := 7 } (fun t => (t.run, t.ip)) =
      some (.faulted (.unimplemented 99), 7) ∧
    stepOn [98, 12] State.reset (fun t => (t.run, t.ip)) = some (.faulted .badRegisterIndex, 1) ∧
    stepOn [100] { State.reset with ip := 5 } (fun t => (t.run, t.ip)) =
      some (.faulted (.illegalOpcode 100), 5) ∧
    stepOn [75, 192] State.reset (fun t => (t.run, t.ip)) = some (.faulted .badRegisterIndex, 1) ∧
    stepOn [76, 5, 12] State.reset (fun t => (t.run, t.ip)) = some (.faulted .badRegisterIndex, 2) := by
  decide

/-! ### Witnesses: concrete states and operands that meet the hypotheses of a statement, one theorem for
each statement that has hypotheses, every clause at a boundary -/

/-- A machine that runs, with a whole instruction in its buffer: the state a meaning is given. -/
def dispatched (bytes : List Byte) : State :=
  { State.reset with ip := 1, buf := bytes }

theorem witness_DecodeOfEncode :
    (Instr.addir (-128) (.flag .of)).wellFormed = true ∧ (Instr.storeii 127 (-128)).wellFormed = true := by
  decide

theorem witness_EncodeOfDecode :
    decodeInstruction [65, 127, 128] = .instr (.storeii 127 (-128)) := by decide

theorem witness_EncodingIsPrefixFree :
    (Instr.movi 5).wellFormed = true ∧ encode (.movi 5) ++ [0, 1] = encode (.movi 5) ++ [0, 1] := by decide

theorem witness_StepRunsTheDecodedInstruction :
    let s := placed [76, 128, 3] { State.reset with ip := 255 }
    s.run = .running ∧ s.buf = [] ∧ (Instr.movir (-128) (.reg .d)).wellFormed = true ∧
      HoldsAt s.mem s.ip (encode (.movir (-128) (.reg .d))) :=
  ⟨rfl, rfl, rfl, by decide, by decide, by decide, trivial⟩

theorem witness_StepIsTheInstructionLevelStep :
    State.reset.run = .running ∧ State.reset.buf = [] := ⟨rfl, rfl⟩

theorem witness_EndedRunsStay :
    (State.reset.endRun .halted).run ≠ .running ∧
    (State.reset.endRun (.faulted .divideByZero)).run ≠ .running := by decide

/-- A halted machine, and steps from it. -/
theorem witness_HaltRule :
    (State.reset.endRun .halted).run = .halted ∧
    ∃ t, Sys2Proof.core.run 2 (State.reset.endRun .halted) = .next t :=
  ⟨rfl, _, rfl⟩

theorem witness_IllegalOpcodeFaults :
    let s := placed [100] { State.reset with ip := 255 }
    let s' := placed [255] State.reset
    (s.run = .running ∧ s.buf = [] ∧ 100 ≤ (s.mem.read s.ip).toNat) ∧
    s'.run = .running ∧ s'.buf = [] ∧ 100 ≤ (s'.mem.read s'.ip).toNat := by decide

theorem witness_BadRegisterIndexFaults :
    let s := placed [17, 0, 12] State.reset
    s.run = .running ∧ s.buf = [] ∧ decodeInstruction [17, 0, 12] = .badRegisterIndex ∧
      HoldsAt s.mem s.ip [17, 0, 12] :=
  ⟨rfl, rfl, by decide, by decide, by decide, by decide, trivial⟩

/-- A fault of decoding, and one of an operation. -/
theorem witness_FaultsArePrecise :
    (let s := placed [100] State.reset
     s.run = .running ∧ s.buf = [] ∧
      ∃ t, step s = .next t ∧ t.run = .faulted (.illegalOpcode 100)) ∧
    (let s := placed [29, 0] State.reset
     s.run = .running ∧ s.buf = [] ∧ ∃ t, step s = .next t ∧ t.run = .faulted .divideByZero) :=
  ⟨⟨rfl, rfl, _, rfl, by decide⟩, rfl, rfl, _, rfl, by decide⟩

theorem witness_InputWait :
    Reads (.getcr (.reg .b)) ∧
    (let s := placed [2, 1] State.reset
     s.run = .running ∧ s.input = [] ∧ s.buf = [] ∧ HoldsAt s.mem s.ip (encode (.getcr (.reg .b)))) ∧
    (dispatched [2, 1]).run = .running ∧ (dispatched [2, 1]).input = [] ∧
    (dispatched [2, 1]).buf = encode (.getcr (.reg .b)) :=
  ⟨.inr ⟨_, rfl⟩, ⟨rfl, rfl, rfl, by decide, by decide, trivial⟩, rfl, rfl, rfl⟩

/-- A running machine that waits for input meets the invariant, as does one that faulted; both step. -/
theorem witness_StepKeepsTheInvariant :
    ((dispatched [2, 1]).Inv ∧ ∃ t, step (dispatched [2, 1]) = .next t) ∧
    ({ State.reset with mem := [(0, 1), (255, 128)], run := .faulted (.unimplemented 99) } : State).Inv ∧
    ∃ t, step { State.reset with mem := [(0, 1), (255, 128)], run := .faulted (.unimplemented 99) } =
      .next t :=
  ⟨⟨⟨by decide, by decide, fun _ => .inr ⟨.getcr (.reg .b), .inr ⟨_, rfl⟩, rfl⟩,
      fun _ h => absurd h (by simp [dispatched, State.reset])⟩, _, rfl⟩,
    ⟨by decide, by decide, fun h => absurd h (by simp),
      fun c h => by cases h; exact ⟨by decide, by decide⟩⟩, _, rfl⟩

theorem witness_StepAlwaysAnswers :
    ({ State.reset with mem := [(0, 92)], sp := 1 } : State).Inv :=
  ⟨by decide, by decide, fun _ => .inl rfl, fun _ h => absurd h (by simp [State.reset])⟩

theorem witness_HostActionsKeepTheInvariant :
    (∃ s, State.start [-128, 255] [7] = some s) ∧
    ({ State.reset with mem := [(3, 255)] } : State).Inv :=
  ⟨⟨_, rfl⟩, by decide, by decide, fun _ => .inl rfl, fun _ h => absurd h (by simp [State.reset])⟩

theorem witness_EqualReadsAreEqualMemories :
    Memory.wf [(0, 1), (255, 255)] = true ∧
    Memory.wf (Memory.write (Memory.write [] 255 255) 0 1) = true ∧
    ∀ a, Memory.read [(0, 1), (255, 255)] a =
      Memory.read (Memory.write (Memory.write [] 255 255) 0 1) a :=
  ⟨by decide, by decide, fun _ => rfl⟩

/-- The longest image with its smallest and largest elements, and each way to be refused. -/
theorem witness_LoadingAnImage :
    ((List.replicate 255 255 ++ [-128] : List Int).length ≤ 256 ∧
      ∀ n ∈ (List.replicate 255 255 ++ [-128] : List Int), -128 ≤ n ∧ n ≤ 255) ∧
    ¬ ((List.replicate 257 0 : List Int).length ≤ 256 ∧
      ∀ n ∈ (List.replicate 257 0 : List Int), -128 ≤ n ∧ n ≤ 255) ∧
    ¬ (([256] : List Int).length ≤ 256 ∧ ∀ n ∈ ([256] : List Int), -128 ≤ n ∧ n ≤ 255) ∧
    ¬ (([-129] : List Int).length ≤ 256 ∧ ∀ n ∈ ([-129] : List Int), -128 ≤ n ∧ n ≤ 255) := by
  refine ⟨⟨?_, fun n h => ?_⟩, fun h => ?_, by simp, by simp⟩
  · rw [List.length_append, List.length_replicate]
    decide
  · rcases List.mem_append.1 h with h | h
    · rw [List.eq_of_mem_replicate h]
      decide
    · rw [List.mem_singleton.1 h]
      decide
  · rw [List.length_replicate] at h
    exact absurd h.1 (by decide)

theorem witness_GetcRules :
    { State.reset with input := [200, 7] }.input = 200 :: [7] ∧ State.reset.input = [] := ⟨rfl, rfl⟩

/-- Zero and nonzero sources, the most negative dividend among them. -/
theorem witness_DivRules_ModRules :
    operandValue State.reset (.reg (.reg .b)) = 0 ∧
    operandValue { State.reset with a := 128 } (.reg accumulator) = -128 ∧ (-128 : Int) ≠ 0 := by decide

/-- Counts -1, 0, 7, 8 and 127; a destination at both ends of its range. -/
theorem witness_ShlRules_ShrRules :
    operandValue { State.reset with b := 255 } (.reg (.reg .b)) < 0 ∧
    0 ≤ operandValue State.reset (.reg (.reg .b)) ∧
    0 ≤ operandValue { State.reset with b := 7 } (.reg (.reg .b)) ∧
    8 ≤ operandValue { State.reset with b := 8 } (.reg (.reg .b)) ∧
    8 ≤ operandValue { State.reset with b := 127 } (.reg (.reg .b)) ∧
    (-128 ≤ operandValue { State.reset with a := 128 } (.reg accumulator) ∧
      operandValue { State.reset with a := 128 } (.reg accumulator) ≤ 127) ∧
    operandValue { State.reset with a := 127 } (.reg accumulator) = 127 := by decide

/-- The smallest and largest operand bytes that name nothing, packed bytes among them, and running
machines that are about to fetch such bytes. -/
theorem witness_refused_indices :
    (12 ≤ (12 : Byte).toNat ∧ 12 ≤ (255 : Byte).toNat ∧ 12 ≤ (0xC0 : Byte).toNat / 16 ∧
      12 ≤ (0x0C : Byte).toNat % 16) ∧
    (let s := placed [2, 12] State.reset
     s.run = .running ∧ s.buf = [] ∧ HoldsAt s.mem s.ip [2, 12]) ∧
    (let s := placed [75, 0x0C] { State.reset with ip := 255 }
     s.run = .running ∧ s.buf = [] ∧ HoldsAt s.mem s.ip [75, 0x0C]) ∧
    (let s := placed [17, 0, 255] State.reset
     s.run = .running ∧ s.buf = [] ∧ HoldsAt s.mem s.ip [17, 0, 255]) :=
  ⟨by decide, ⟨rfl, rfl, by decide, by decide, trivial⟩, ⟨rfl, rfl, by decide, by decide, trivial⟩,
    rfl, rfl, by decide, by decide, by decide, trivial⟩

/-- Less, equal and greater, at the ends of the range; the later state is the one the compare left. -/
theorem witness_CompareDecidesSignedOrder :
    (∃ t, exec (.cmpi 127) { State.reset with a := 128 } = .next t ∧ t.zf = t.zf ∧ t.sf = t.sf) ∧
    (∃ t, exec (.cmpi (-128)) { State.reset with a := 127 } = .next t) ∧
    (∃ t, exec (.cmpr (.reg .a)) State.reset = .next t) ∧
    (128 : Byte).toInt < 127 ∧ (-128 : Int) ≤ (127 : Byte).toInt ∧ (0 : Byte).toInt = 0 :=
  ⟨⟨_, rfl, rfl, rfl⟩, ⟨_, rfl⟩, ⟨_, rfl⟩, by decide, by decide, by decide⟩

/-- Every predicate of the conditional jumps holds in one of two states and fails in the other. -/
theorem witness_ConditionalJumpRules :
    let s := State.reset
    let u := { State.reset with a := 1, of := true, zf := true, pf := true, sf := true }
    (s.of = false ∧ s.zf = false ∧ s.pf = false ∧ s.sf = false ∧ ¬ (s.sf = true ∨ s.zf = true) ∧
      s.a = 0) ∧
    u.of = true ∧ u.zf = true ∧ u.pf = true ∧ u.sf = true ∧ (u.sf = true ∨ u.zf = true) ∧ u.a ≠ 0 := by
  decide

/-- Each form of push, each form of pop, and pops into a flag, into `sp` and into `ip`; the state popped in
is the one the push left. -/
theorem witness_PopUndoesPush :
    (IsPush .push ∧ ∃ t, exec .push { State.reset with a := 42 } = .next t ∧ t.sp = t.sp ∧ t.mem = t.mem) ∧
    (IsPush (.pushi (-1)) ∧ ∃ t, exec (.pushi (-1)) State.reset = .next t) ∧
    (IsPush (.pushr (.reg .sp)) ∧ ∃ t, exec (.pushr (.reg .sp)) State.reset = .next t) ∧
    IsPopInto .pop accumulator ∧ IsPopInto (.popr (.flag .zf)) (.flag .zf) ∧
    IsPopInto (.popr (.reg .sp)) (.reg .sp) ∧ IsPopInto (.popr (.reg .ip)) (.reg .ip) ∧
    accumulator ≠ .reg .sp :=
  ⟨⟨.inl rfl, _, rfl, rfl, rfl⟩, ⟨.inr (.inl ⟨_, rfl⟩), _, rfl⟩, ⟨.inr (.inr ⟨_, rfl⟩), _, rfl⟩,
    .inl ⟨rfl, rfl⟩, .inr rfl, .inr rfl, .inr rfl, by decide⟩

theorem witness_OnlyWrittenNamesChange :
    ∃ t, exec (.addrr (.reg .b) (.reg .c)) { State.reset with b := 5 } = .next t := ⟨_, rfl⟩

theorem witness_CarryAndOverflowAreNeverComputed :
    (∃ t, exec (.movir 1 (.flag .cf)) State.reset = .next t ∧ t.cf ≠ State.reset.cf) ∧
    ∃ t, exec (.movir 1 (.flag .of)) State.reset = .next t ∧ t.of ≠ State.reset.of :=
  ⟨⟨_, rfl, by decide⟩, _, rfl, by decide⟩

theorem witness_OnlyTheStoredByteChanges :
    ∃ t, exec (.storeii (-1) 9) State.reset = .next t ∧
      storedAddress State.reset (.storeii (-1) 9) ≠ some 254 ∧
      storedAddress State.reset (.storeii (-1) 9) ≠ some 0 :=
  ⟨_, rfl, by decide, by decide⟩

theorem witness_OnlyPutcAndGetcUseTheChannels :
    (∃ t, exec .putc { State.reset with a := 255 } = .next t ∧ t.output = [255]) ∧
    ∃ t, exec .getc { State.reset with input := [200, 7] } = .next t ∧ t.input = [7] :=
  ⟨⟨_, rfl, rfl⟩, _, rfl, rfl⟩

/-- Two steps that write a byte and read one. -/
theorem witness_ChannelsAreOrderedOverRuns :
    ∃ t, Sys2Proof.core.run 2 (placed [4, 7, 1] { State.reset with input := [9] }) = .next t ∧
      t.output = [7] ∧ t.input = [] :=
  ⟨_, rfl, by decide, by decide⟩

/-- Each of the four ways a run ends. -/
theorem witness_HowAnInstructionEndsARun :
    (∃ t, exec .halt State.reset = .next t ∧ State.reset.run = .running ∧ t.run ≠ .running) ∧
    (∃ t, exec .ret State.reset = .next t ∧ t.run ≠ .running) ∧
    (∃ t, exec (.divi 0) State.reset = .next t ∧ t.run ≠ .running) ∧
    ∃ t, exec (.shli (-1)) State.reset = .next t ∧ t.run ≠ .running :=
  ⟨⟨_, rfl, rfl, by decide⟩, ⟨_, rfl, by decide⟩, ⟨_, rfl, by decide⟩, _, rfl, by decide⟩

/-- Running machines that meet the invariant and whose step ends the run: an illegal opcode, a bad register
index, a halt and a zero divisor. -/
theorem witness_HowAStepEndsARun :
    let ended (bytes : List Int) :=
      let s := placed bytes State.reset
      s.Inv ∧ s.run = .running ∧ ∃ t, step s = .next t ∧ t.run ≠ .running
    ended [100] ∧ ended [2, 12] ∧ ended [0] ∧ ended [29, 0] := by
  refine ⟨?_, ?_, ?_, ?_⟩ <;>
    exact ⟨⟨by decide, by decide, fun _ => .inl rfl, fun _ h => by cases h⟩, rfl, _, rfl, by decide⟩

theorem witness_SequentialUnlessIpIsWritten :
    ∃ t, exec (.movi 5) (dispatched [73, 5]) = .next t ∧ (dispatched [73, 5]).run = .running ∧
      t.run = .running ∧ t.buf = [] ∧ (dispatched [73, 5]).buf ≠ [] ∧
      .reg .ip ∉ writtenNames (.movi 5) :=
  ⟨_, rfl, rfl, rfl, rfl, by decide, by decide⟩

theorem witness_UnnamedRegistersHaveNoInfluence :
    Reg.sb ≠ .a ∧ Reg.sb ≠ .ip ∧ Reg.sb ≠ .sp ∧
      Operand.reg (.reg .sb) ∉ (Instr.pushr (.reg .b)).operands := by decide

/-- Every instruction that stores, at an address, its own bytes and both ends of memory among them. -/
theorem witness_StoresAreSeenAtOnce :
    let s := { dispatched [65, 2, 9] with a := 255, sp := 0 }
    let stores (i : Instr) (a : Addr) := storedAddress s i = some a ∧ ∃ t, exec i s = .next t ∧ t.mem = t.mem
    stores (.storei 255) 255 ∧ stores (.storer (.reg .a)) 255 ∧ stores (.storeii 2 9) 2 ∧
    stores (.storeri (.reg .ip) 7) 1 ∧ stores (.storerr (.flag .zf) (.reg .a)) 0 ∧
    stores (.storeir (-128) (.reg .sp)) 128 ∧ stores .push 255 ∧ stores (.pushi 9) 255 ∧
    stores (.pushr (.reg .sp)) 255 := by
  refine ⟨?_, ?_, ?_, ?_, ?_, ?_, ?_, ?_, ?_⟩ <;> exact ⟨by decide, _, rfl, rfl⟩

end Sys2Proof.Tests
end

section
/-! SUPPORT. Runs that stay where they are: the engine after the end of a run, and any state that a step
answers unchanged (spec/10_state.md R34; 40_engine_and_operands.md R200). -/

namespace Sys2Proof.Machine

variable {s t : State}

/-- HALTED and FAULTED are absorbing (R34); that the step answers the same state is log entry 3. -/
theorem step_of_run_ne_running (h : s.run ≠ .running) : step s = .next s := by
  unfold step
  split
  next hr => exact absurd hr h
  next => rfl
  next => rfl

/-- A state that one step answers unchanged is the answer of any number of steps. -/
theorem core_run_of_step_eq_self (h : step s = .next s) (n : Nat) : core.run n s = .next s := by
  induction n with
  | zero => rfl
  | succ n ih => simp only [Host.Core.run, core_step_eq, h, ih]

/-- A run that has ended stays as it ended, however many steps are taken (R34). -/
theorem run_eq_of_core_run (h : s.run ≠ .running) {n : Nat} (ht : core.run n s = .next t) :
    t.run = s.run := by
  have hs : core.run n s = .next s := core_run_of_step_eq_self (step_of_run_ne_running h) n
  have hst : s = t := Host.Outcome.next.inj (hs.symm.trans ht)
  rw [hst]

end Sys2Proof.Machine
end

section
/-! SUPPORT. Halt and character I/O (spec/41_halt_io.md): the statements of that family. -/

namespace Sys2Proof.Machine

/-- Opcode 0 is `halt` and has no operands (R71, R76). -/
theorem encodesNone_halt : EncodesNone 0 .halt := ⟨rfl, rfl⟩

/-- `halt` ends the run as HALTED and does nothing else, `ip` on its own byte (R100). -/
theorem ends_exec_halt (s : State) : Ends s .halted (exec .halt s) := by
  rw [exec_halt_eq]
  exact ends_endRun s .halted

/-- Settles O19: opcode 0, the end of the run that `halt` answers, and that HALTED is absorbing. -/
theorem haltRule : Obligations.HaltRule := by
  refine ⟨encodesNone_halt, ends_exec_halt, ?_⟩
  intro n s t hs ht
  have ended : s.run ≠ .running := by simp [hs]
  rw [run_eq_of_core_run ended ht, hs]

end Sys2Proof.Machine
end

section
/-! SUPPORT. Fetching an instruction: the step on bytes that stand at `ip` is the decoder's answer to all of
them, once its answer to every proper beginning of them is "incomplete"
(spec/40_engine_and_operands.md R201, R202, R206), and the refusal of an index that names nothing
(spec/30_encoding.md R81, spec/60_exceptions.md R233). -/

namespace Sys2Proof.Machine

/-! ### Proper beginnings of an instruction -/

/-- The decoder answers "incomplete" to every proper beginning of the bytes (R78). -/
def PrefixesIncomplete (bytes : List Byte) : Prop :=
  ∀ j < bytes.length, decodeInstruction (bytes.take j) = .incomplete

/-- An opcode with fewer bytes after it than its row has is incomplete (R78). -/
theorem prefixesIncomplete_of_row {op : Byte} {operands : List Byte} {row : Row}
    (hrow : rowOf (uint op) = some row) (hlen : operands.length = row.operandBytes) :
    PrefixesIncomplete (op :: operands) := by
  intro j hj
  cases j with
  | zero => rfl
  | succ j =>
    have short : (operands.take j).length ≠ row.operandBytes := by
      simp only [List.length_cons] at hj
      rw [List.length_take]
      omega
    exact decodeInstruction_incomplete hrow short

/-- Opcode and operand bytes of every row fit the longest instruction (R8, R71). -/
theorem operandBytes_lt_maxIlen (row : Row) : row.operandBytes < Config.maxIlen := by
  cases row <;> simp [Row.operandBytes, Config.maxIlen]

/-! ### Accumulation -/

/-- Micro-steps over bytes that stand at `ip`, the buffer incomplete before each of them, end in the
decoder's answer to the buffer with all of them, `ip` at the last (R25, R201 to R203). -/
theorem accumulate_holdsAt {r : Result} :
    ∀ (x : Byte) (rest : List Byte) (s : State) (fuel : Nat),
      HoldsAt s.mem s.ip (x :: rest) → rest.length < fuel →
      (∀ j ≤ rest.length, decodeInstruction (s.buf ++ (x :: rest).take j) = .incomplete) →
      decodeAttempt { s with ip := s.ip + BitVec.ofNat 8 rest.length, buf := s.buf ++ x :: rest } =
        .done r →
      accumulate fuel s = r
  | _, _, _, 0, _, hfuel, _, _ => absurd hfuel (Nat.not_lt_zero _)
  | x, [], s, fuel + 1, hmem, _, hinc, hdone => by
    obtain ⟨hx, -⟩ := hmem
    have incomplete : decodeInstruction s.buf = .incomplete := by simpa using hinc 0 (Nat.zero_le _)
    have attempt : decodeAttempt (fetchByte s) = .done r := by simpa [fetchByte, hx] using hdone
    simp only [accumulate, microStep_incomplete s incomplete, attempt]
  | x, y :: rest, s, fuel + 1, hmem, hfuel, hinc, hdone => by
    obtain ⟨hx, hrest⟩ := hmem
    have incomplete : decodeInstruction s.buf = .incomplete := by simpa using hinc 0 (Nat.zero_le _)
    have incomplete' : decodeInstruction (s.buf ++ [x]) = .incomplete := by
      simpa using hinc 1 (by simp)
    have more : microStep s = .more { s with ip := s.ip + 1, buf := s.buf ++ [x] } := by
      simp only [microStep_incomplete s incomplete, decodeAttempt, fetchByte, hx, incomplete']
    simp only [accumulate, more]
    refine accumulate_holdsAt y rest { s with ip := s.ip + 1, buf := s.buf ++ [x] } fuel hrest
      (by simpa using hfuel) ?_ ?_
    · intro j hj
      simpa using hinc (j + 1) (by simpa using hj)
    · have hip : s.ip + 1 + BitVec.ofNat 8 rest.length = s.ip + BitVec.ofNat 8 (rest.length + 1) := by
        bv_omega
      rw [List.length_cons, ← hip, List.append_cons] at hdone
      exact hdone

/-- A step of a running machine with an empty buffer is the decoder's answer to the bytes at `ip`, when it
has one to all of them and to no proper beginning of them (R206). -/
theorem step_of_decodeAttempt {s : State} {bytes : List Byte} {r : Result} (hrun : s.run = .running)
    (hbuf : s.buf = []) (hmem : HoldsAt s.mem s.ip bytes) (hne : bytes ≠ [])
    (hlen : bytes.length ≤ Config.maxIlen) (hinc : PrefixesIncomplete bytes)
    (hdone : decodeAttempt (fetched s bytes) = .done r) : step s = r := by
  cases bytes with
  | nil => exact absurd rfl hne
  | cons x rest =>
    simp only [step, hrun, runInstruction]
    refine accumulate_holdsAt x rest s Config.maxIlen hmem hlen ?_ ?_
    · intro j hj
      rw [hbuf]
      exact hinc j (Nat.lt_succ_of_le hj)
    · rw [hbuf]
      exact hdone

/-! ### Refused indices -/

/-- The decoder refuses an index only once it has all the bytes of the opcode's row (R78, R81). -/
theorem exists_row_of_badRegisterIndex {bytes : List Byte}
    (h : decodeInstruction bytes = .badRegisterIndex) :
    ∃ op operands row, bytes = op :: operands ∧ rowOf (uint op) = some row ∧
      operands.length = row.operandBytes := by
  cases bytes with
  | nil => cases h
  | cons op operands =>
    cases hrow : rowOf (uint op) with
    | none => simp [decodeInstruction, hrow] at h
    | some row =>
      refine ⟨op, operands, row, rfl, hrow, ?_⟩
      by_contra hlen
      simp [decodeInstruction_incomplete hrow hlen] at h

/-- A step that fetches bytes the decoder refuses raises BadRegisterIndex on the last of them (R233). -/
theorem step_of_badRegisterIndex {s : State} {bytes : List Byte} (hrun : s.run = .running)
    (hbuf : s.buf = []) (hmem : HoldsAt s.mem s.ip bytes)
    (h : decodeInstruction bytes = .badRegisterIndex) :
    step s = raise .badRegisterIndex (fetched s bytes) := by
  have attempt : decodeAttempt (fetched s bytes) = .done (raise .badRegisterIndex (fetched s bytes)) := by
    have hb : decodeInstruction (fetched s bytes).buf = .badRegisterIndex := h
    simp only [decodeAttempt, hb]
  obtain ⟨op, operands, row, rfl, hrow, hlen⟩ := exists_row_of_badRegisterIndex h
  have bounded : (op :: operands).length ≤ Config.maxIlen := by
    have hmax := operandBytes_lt_maxIlen row
    rw [List.length_cons]
    omega
  exact step_of_decodeAttempt hrun hbuf hmem (List.cons_ne_nil _ _) bounded
    (prefixesIncomplete_of_row hrow hlen) attempt

/-- Bytes the decoder refuses for an index are refused by the step that fetches them (R81, R233). -/
theorem refusesIndex_of_decode {bytes : List Byte} (h : decodeInstruction bytes = .badRegisterIndex) :
    RefusesIndex bytes := by
  refine ⟨h, ?_⟩
  intro s hrun hbuf hmem
  rw [step_of_badRegisterIndex hrun hbuf hmem h, raise_eq]
  exact ends_endRun (fetched s bytes) (.faulted .badRegisterIndex)

/-- A row of shape `r` whose instructions encode as the opcode and the index byte has the encoding of that
shape (R71, R73, R81). -/
theorem encodesReg_of_row {op : Nat} {f : RegOrFlag → Instr}
    (hrow : rowOf (uint (BitVec.ofNat 8 op)) = some (.r f))
    (henc : ∀ k, encode (f k) = [BitVec.ofNat 8 op, k.indexByte]) : EncodesReg op f := by
  refine ⟨fun k => ⟨?_, ?_⟩, fun x hx => refusesIndex_of_decode ?_⟩
  · simp only [decodeInstruction, hrow, Row.decode, withName, uint_indexCell, ofIndex_combinedIndex]
  · rw [henc, indexByte_eq]
  · have unnamed : RegOrFlag.ofIndex (uint x) = none := ofIndex_eq_none hx
    simp only [decodeInstruction, hrow, Row.decode, withName, unnamed]

end Sys2Proof.Machine
end

section
/-! SUPPORT. Unary operations (spec/42_unary.md): the statements of that family. -/

namespace Sys2Proof.Machine

/-! ### The two forms -/

/-- The two forms of a unary operation: it is enough to encode them, to dispatch both to the operation `f`,
and to show the law of the assignment of `f` to the accumulator (R212). -/
theorem unaryForms_of_unary {op : Nat} {bare : Instr} {reg : RegOrFlag → Instr} (f : Int → Int)
    {law : Int → State → Result → Prop} (hbare : EncodesNone op bare) (hreg : EncodesReg (op + 1) reg)
    (exec_bare : ∀ s, exec bare s = unary f (.reg accumulator) s)
    (exec_reg : ∀ s k, exec (reg k) s = unary f (.reg k) s)
    (hlaw : ∀ v s, law v s (assign accumulator (f v) s)) : UnaryForms op bare reg law := by
  have law_unary (s : State) (k : RegOrFlag) : law (nameValue s k) s (unary f (.reg k) s) := by
    rw [nameValue_eq]
    exact hlaw (rfRead s k) s
  refine ⟨hbare, hreg, fun s => ⟨?_, fun k => ?_⟩⟩
  · rw [exec_bare]
    exact law_unary s accumulator
  · rw [exec_reg]
    exact law_unary s k

/-! ### not and neg -/

/-- In two's complement `-v - 1` is the cell with every bit inverted (R105). -/
theorem ofInt_neg_sub_one (v : Int) : BitVec.ofInt 8 (-v - 1) = ~~~ BitVec.ofInt 8 v := by
  calc BitVec.ofInt 8 (-v - 1) = BitVec.ofInt 8 (-v) + BitVec.ofInt 8 (-1) := by
        rw [Int.sub_eq_add_neg, BitVec.ofInt_add]
    _ = -BitVec.ofInt 8 v - 1#8 := by rw [BitVec.ofInt_neg, BitVec.sub_eq_add_neg]; rfl
    _ = ~~~ BitVec.ofInt 8 v := (BitVec.not_eq_neg_add _).symm

/-- Settles O22: the value written is the model's `aluNot` itself, and its cell is the complement. -/
theorem notRules : Obligations.NotRules := by
  refine unaryForms_of_unary aluNot ⟨rfl, rfl⟩ (encodesReg_of_row rfl fun _ => rfl)
    exec_not_eq exec_notr_eq fun v s => ⟨?_, ofInt_neg_sub_one v⟩
  exact writes_assign s accumulator (aluNot v) (-v - 1) rfl

/-- Settles O23: normalization keeps the cell, so the normalized negation writes what `-v` does. -/
theorem negRules : Obligations.NegRules := by
  refine unaryForms_of_unary aluNeg ⟨rfl, rfl⟩ (encodesReg_of_row rfl fun _ => rfl)
    exec_neg_eq exec_negr_eq fun v s => ?_
  exact writes_assign s accumulator (aluNeg v) (-v) (wrap8_norm8 (-v))

/-! ### The bit counts -/

/-- The model's count of 1 bits is the sum of the eight bits (R222). -/
theorem popcount8_eq_bitSum (n : Int) : popcount8 n = bitSum (wrap8 n) := by
  have range8 : List.range 8 = [0, 1, 2, 3, 4, 5, 6, 7] := rfl
  have bit (b : Bool) : (if b = true then 1 else 0) = b.toNat := by cases b <;> rfl
  rw [popcount8, ← List.countP_eq_length_filter, range8, bitSum]
  simp only [List.countP_cons, List.countP_nil, bit]
  omega

/-- Settles O24: the cell written is that of the bit sum, which is the model's count. -/
theorem popcountRules : Obligations.PopcountRules := by
  refine unaryForms_of_unary aluPopcount ⟨rfl, rfl⟩ (encodesReg_of_row rfl fun _ => rfl)
    exec_popcount_eq exec_popcountr_eq fun v s => ?_
  have count : aluPopcount v = bitSum (BitVec.ofInt 8 v) := by
    rw [aluPopcount, popcount8_eq_bitSum, wrap8]
  exact writes_assign s accumulator _ _ (congrArg wrap8 count)

/-- The model's count of leading 0 bits is the position, from bit 7 down, of the first 1 bit. -/
theorem clz8_eq_findIdx (n : Int) :
    clz8 n = (List.range 8).findIdx fun j => (wrap8 n).getMsbD j := by
  have bound := List.findIdx_le_length (p := fun j => (wrap8 n).getMsbD j) (xs := List.range 8)
  simp only [clz8, List.takeWhile_eq_take_findIdx_not, Bool.not_not, List.length_take]
  exact Nat.min_eq_left bound

/-- The bits above the first 1 bit from the top are 0, that bit is 1, and a cell without one counts 8
(R222). -/
theorem isLeadingZeros_clz8 (n : Int) : IsLeadingZeros (wrap8 n) (clz8 n) := by
  rw [clz8_eq_findIdx]
  generalize hz : (List.range 8).findIdx (fun j => (wrap8 n).getMsbD j) = z
  have bound : z ≤ 8 := by
    rw [← hz]
    exact List.findIdx_le_length
  refine ⟨bound, fun j hj above => ?_, fun hlt => ?_⟩
  · have before : 7 - j < (List.range 8).findIdx fun j => (wrap8 n).getMsbD j := by omega
    have zero := List.not_of_lt_findIdx before
    have back : 8 - 1 - (7 - j) = j := by omega
    simpa [BitVec.getMsbD_eq_getLsbD, back, show 7 - j < 8 by omega] using zero
  · have inside : (List.range 8).findIdx (fun j => (wrap8 n).getMsbD j) < (List.range 8).length := by
      simpa [hz] using hlt
    have one := List.findIdx_getElem (w := inside)
    simp only [List.getElem_range, hz] at one
    simpa [BitVec.getMsbD_eq_getLsbD, hlt] using one

/-- Settles O25: the count of the statement is the model's `clz8`. -/
theorem clzRules : Obligations.ClzRules := by
  refine unaryForms_of_unary aluClz ⟨rfl, rfl⟩ (encodesReg_of_row rfl fun _ => rfl)
    exec_clz_eq exec_clzr_eq fun v s => ⟨clz8 v, isLeadingZeros_clz8 v, ?_⟩
  exact writes_assign s accumulator (aluClz v) (clz8 v) rfl

end Sys2Proof.Machine
end

section
/-! SUPPORT. The encodings of shapes i, rr and ir, each from the opcode's row and the bytes its instructions
encode as (spec/30_encoding.md R71 to R74, R81). -/

namespace Sys2Proof.Machine

/-! ### Naming an operand -/

/-- The index of a name is handed on as that name (R73). -/
theorem withName_combinedIndex (k : RegOrFlag) (f : RegOrFlag → Decoded) :
    withName (combinedIndex k) f = f k := by
  simp only [withName, ofIndex_combinedIndex]

/-- An index from 12 up is refused (R81). -/
theorem withName_of_unnamed {index : Nat} (h : 12 ≤ index) (f : RegOrFlag → Decoded) :
    withName index f = .badRegisterIndex := by
  simp only [withName, ofIndex_eq_none h]

/-- Where every name is refused, so is every index (R81). -/
theorem withName_refused (index : Nat) :
    withName index (fun _ => .badRegisterIndex) = .badRegisterIndex := by
  unfold withName
  split <;> rfl

/-! ### The shapes -/

variable {op : Nat}

/-- A row of shape `i` whose instructions encode as the opcode and the immediate's cell has the encoding of
that shape (R71, R72). -/
theorem encodesImm_of_row {f : Int → Instr} (hrow : rowOf (uint (BitVec.ofNat 8 op)) = some (.i f))
    (henc : ∀ n, encode (f n) = [BitVec.ofNat 8 op, wrap8 n]) : EncodesImm op f := by
  refine fun x => ⟨?_, ?_⟩
  · simp only [decodeInstruction, hrow, Row.decode, sint]
  · rw [henc, ← sint, wrap8_sint]

/-- A row of shape `ir` whose instructions encode as the opcode, the immediate's cell and the index byte has
the encoding of that shape (R71 to R73, R81). -/
theorem encodesImmReg_of_row {f : Int → RegOrFlag → Instr}
    (hrow : rowOf (uint (BitVec.ofNat 8 op)) = some (.ir f))
    (henc : ∀ n k, encode (f n k) = [BitVec.ofNat 8 op, wrap8 n, k.indexByte]) : EncodesImmReg op f := by
  refine ⟨fun x k => ⟨?_, ?_⟩, fun x y hy => refusesIndex_of_decode ?_⟩
  · simp only [decodeInstruction, hrow, Row.decode, uint_indexCell, withName_combinedIndex, sint]
  · rw [henc, indexByte_eq, ← sint, wrap8_sint]
  · have unnamed : 12 ≤ uint y := hy
    simp only [decodeInstruction, hrow, Row.decode, withName_of_unnamed unnamed]

/-- A row of shape `rr` whose instructions encode as the opcode and the packed byte has the encoding of that
shape: an index from 12 up is refused in either half of the byte (R71, R74, R81). -/
theorem encodesRegReg_of_row {f : RegOrFlag → RegOrFlag → Instr}
    (hrow : rowOf (uint (BitVec.ofNat 8 op)) = some (.rr f))
    (henc : ∀ k1 k2, encode (f k1 k2) = [BitVec.ofNat 8 op, packByte k1 k2]) : EncodesRegReg op f := by
  refine ⟨fun k1 k2 => ⟨?_, ?_⟩, fun x hx => refusesIndex_of_decode ?_⟩
  · simp only [decodeInstruction, hrow, Row.decode, highNibble_pack, lowNibble_pack,
      withName_combinedIndex]
  · rw [henc, packByte_eq]
  · simp only [decodeInstruction, hrow, Row.decode]
    obtain high | low := hx
    · exact withName_of_unnamed high _
    · simp only [withName_of_unnamed (show 12 ≤ lowNibble x from low), withName_refused]

end Sys2Proof.Machine
end

section
/-! SUPPORT. Binary arithmetic (spec/43_arith.md): the five forms of a binary operation, and the statements of
that family. -/

namespace Sys2Proof.Machine

/-! ### The five forms -/

/-- The five forms of a binary operation: it is enough to encode them, to dispatch each to the operation `f`,
and to show the law of `f` once, for any source operand and any destination (R212, R213). -/
theorem binaryForms_of_binary {op : Nat} {bare : Instr} {imm : Int → Instr} {reg : RegOrFlag → Instr}
    {regReg : RegOrFlag → RegOrFlag → Instr} {immReg : Int → RegOrFlag → Instr}
    (f : Int → Int → Except FaultCause Int) {law : Int → Int → State → RegOrFlag → Result → Prop}
    (hbare : EncodesNone op bare) (himm : EncodesImm (op + 1) imm) (hreg : EncodesReg (op + 2) reg)
    (hregReg : EncodesRegReg (op + 3) regReg) (himmReg : EncodesImmReg (op + 4) immReg)
    (exec_bare : ∀ s, exec bare s = binary f (.reg accumulator) accumulator s)
    (exec_imm : ∀ s n, exec (imm n) s = binary f (.imm n) accumulator s)
    (exec_reg : ∀ s k, exec (reg k) s = binary f (.reg k) accumulator s)
    (exec_regReg : ∀ s k1 k2, exec (regReg k1 k2) s = binary f (.reg k1) k2 s)
    (exec_immReg : ∀ s n k, exec (immReg n k) s = binary f (.imm n) k s)
    (hlaw : ∀ s o k, law (rfRead s k) (val s o) s k (binary f o k s)) :
    BinaryForms op bare imm reg regReg immReg law := by
  refine ⟨hbare, himm, hreg, hregReg, himmReg, fun s => ?_⟩
  simp only [nameValue_eq, exec_bare, exec_imm, exec_reg, exec_regReg, exec_immReg]
  exact ⟨hlaw s (.reg accumulator) accumulator, fun n => hlaw s (.imm n) accumulator,
    fun k => hlaw s (.reg k) accumulator, fun k1 k2 => hlaw s (.reg k1) k2,
    fun n k => hlaw s (.imm n) k⟩

section binary
variable (s : State) {f : Int → Int → Except FaultCause Int} {o : Operand} {k : RegOrFlag}

/-- A binary operation whose value is `n` normalized writes `n` (R212, R214). -/
theorem writes_binary_of_norm8 {n : Int} (h : f (rfRead s k) (val s o) = .ok (norm8 n)) :
    Writes s k n (binary f o k s) := by
  rw [binary_ok s h, ← assign_eq]
  exact writes_assign s k (norm8 n) n (wrap8_norm8 n)

/-- A binary operation that faults ends the run and writes nothing (R212, R231). -/
theorem ends_binary_of_error {cause : FaultCause} (h : f (rfRead s k) (val s o) = .error cause) :
    Ends s (.faulted cause) (binary f o k s) := by
  rw [binary_error s h]
  exact ends_endRun s (.faulted cause)

end binary

/-! ### add, sub and mul -/

/-- Settles O26: every form writes the sum, normalized. -/
theorem addRules : Obligations.AddRules :=
  binaryForms_of_binary aluAdd ⟨rfl, rfl⟩ (encodesImm_of_row rfl fun _ => rfl)
    (encodesReg_of_row rfl fun _ => rfl) (encodesRegReg_of_row rfl fun _ _ => rfl)
    (encodesImmReg_of_row rfl fun _ _ => rfl)
    exec_add_eq exec_addi_eq exec_addr_eq exec_addrr_eq exec_addir_eq
    fun s _ _ => writes_binary_of_norm8 s rfl

/-- Settles O27: every form writes destination minus source, normalized. -/
theorem subRules : Obligations.SubRules :=
  binaryForms_of_binary aluSub ⟨rfl, rfl⟩ (encodesImm_of_row rfl fun _ => rfl)
    (encodesReg_of_row rfl fun _ => rfl) (encodesRegReg_of_row rfl fun _ _ => rfl)
    (encodesImmReg_of_row rfl fun _ _ => rfl)
    exec_sub_eq exec_subi_eq exec_subr_eq exec_subrr_eq exec_subir_eq
    fun s _ _ => writes_binary_of_norm8 s rfl

/-- Settles O28: every form writes the product, normalized. -/
theorem mulRules : Obligations.MulRules :=
  binaryForms_of_binary aluMul ⟨rfl, rfl⟩ (encodesImm_of_row rfl fun _ => rfl)
    (encodesReg_of_row rfl fun _ => rfl) (encodesRegReg_of_row rfl fun _ _ => rfl)
    (encodesImmReg_of_row rfl fun _ _ => rfl)
    exec_mul_eq exec_muli_eq exec_mulr_eq exec_mulrr_eq exec_mulir_eq
    fun s _ _ => writes_binary_of_norm8 s rfl

/-! ### div and mod -/

/-- The library's floored quotient and remainder are those of R11: the remainder has the sign of the
divisor. -/
theorem floored_fdiv_fmod (d m : Int) : Floored d m (d.fdiv m) (d.fmod m) := by
  refine ⟨(Int.mul_fdiv_add_fmod d m).symm, fun pos => ?_, fun neg => ?_⟩
  · exact ⟨Int.fmod_nonneg_of_pos d pos, Int.fmod_lt_of_pos d pos⟩
  · -- Changing both signs changes the remainder's, and makes the divisor positive.
    have flip : (-d).fmod (-m) = -d.fmod m := Int.neg_fmod_neg d m
    have nonneg := Int.fmod_nonneg_of_pos (-d) (Int.neg_pos_of_neg neg)
    have lt := Int.fmod_lt_of_pos (-d) (Int.neg_pos_of_neg neg)
    omega

section zeroSource
variable {d v : Int}

/-- A zero source faults (R219, R235). -/
theorem aluDiv_of_zero (h : v = 0) : aluDiv d v = .error .divideByZero := if_pos h

/-- A source other than 0 has a quotient (R219). -/
theorem aluDiv_of_ne_zero (h : v ≠ 0) : aluDiv d v = .ok (norm8 (d.fdiv v)) := if_neg h

/-- A zero source faults (R219, R235). -/
theorem aluMod_of_zero (h : v = 0) : aluMod d v = .error .divideByZero := if_pos h

/-- A source other than 0 has a remainder (R219). -/
theorem aluMod_of_ne_zero (h : v ≠ 0) : aluMod d v = .ok (norm8 (d.fmod v)) := if_neg h

end zeroSource

/-- Settles O29: a zero source faults before anything is written; every other source gives the floored
quotient, normalized. -/
theorem divRules : Obligations.DivRules := by
  refine binaryForms_of_binary aluDiv ⟨rfl, rfl⟩ (encodesImm_of_row rfl fun _ => rfl)
    (encodesReg_of_row rfl fun _ => rfl) (encodesRegReg_of_row rfl fun _ _ => rfl)
    (encodesImmReg_of_row rfl fun _ _ => rfl)
    exec_div_eq exec_divi_eq exec_divr_eq exec_divrr_eq exec_divir_eq
    fun s o k => ⟨fun zero => ?_, fun nonzero => ?_⟩
  · exact ends_binary_of_error s (aluDiv_of_zero zero)
  · exact ⟨_, _, floored_fdiv_fmod (rfRead s k) (val s o),
      writes_binary_of_norm8 s (aluDiv_of_ne_zero nonzero)⟩

/-- Settles O30: a zero source faults before anything is written; every other source gives the floored
remainder, normalized. -/
theorem modRules : Obligations.ModRules := by
  refine binaryForms_of_binary aluMod ⟨rfl, rfl⟩ (encodesImm_of_row rfl fun _ => rfl)
    (encodesReg_of_row rfl fun _ => rfl) (encodesRegReg_of_row rfl fun _ _ => rfl)
    (encodesImmReg_of_row rfl fun _ _ => rfl)
    exec_mod_eq exec_modi_eq exec_modr_eq exec_modrr_eq exec_modir_eq
    fun s o k => ⟨fun zero => ?_, fun nonzero => ?_⟩
  · exact ends_binary_of_error s (aluMod_of_zero zero)
  · exact ⟨_, _, floored_fdiv_fmod (rfRead s k) (val s o),
      writes_binary_of_norm8 s (aluMod_of_ne_zero nonzero)⟩

end Sys2Proof.Machine
end

section
/-! SUPPORT. Bitwise operations and shifts (spec/44_bitwise_shift.md): the statements of that family. -/

namespace Sys2Proof.Machine

/-- A binary operation whose value has the cell of `n` writes `n`: only the cell reaches the destination
(R32, R212). -/
theorem writes_binary_of_wrap8 (s : State) {f : Int → Int → Except FaultCause Int} {o : Operand}
    {k : RegOrFlag} {n m : Int} (value : f (rfRead s k) (val s o) = .ok m) (cell : wrap8 m = wrap8 n) :
    Writes s k n (binary f o k s) := by
  rw [binary_ok s value, ← assign_eq]
  exact writes_assign s k m n cell

/-! ### or, and and xor -/

/-- Settles O31: every form writes the signed view of the or of the two cells. -/
theorem orRules : Obligations.OrRules :=
  binaryForms_of_binary aluOr ⟨rfl, rfl⟩ (encodesImm_of_row rfl fun _ => rfl)
    (encodesReg_of_row rfl fun _ => rfl) (encodesRegReg_of_row rfl fun _ _ => rfl)
    (encodesImmReg_of_row rfl fun _ _ => rfl)
    exec_or_eq exec_ori_eq exec_orr_eq exec_orrr_eq exec_orir_eq
    fun s _ _ => writes_binary_of_wrap8 s rfl rfl

/-- Settles O32: every form writes the signed view of the and of the two cells. -/
theorem andRules : Obligations.AndRules :=
  binaryForms_of_binary aluAnd ⟨rfl, rfl⟩ (encodesImm_of_row rfl fun _ => rfl)
    (encodesReg_of_row rfl fun _ => rfl) (encodesRegReg_of_row rfl fun _ _ => rfl)
    (encodesImmReg_of_row rfl fun _ _ => rfl)
    exec_and_eq exec_andi_eq exec_andr_eq exec_andrr_eq exec_andir_eq
    fun s _ _ => writes_binary_of_wrap8 s rfl rfl

/-- Settles O33: every form writes the signed view of the exclusive or of the two cells. -/
theorem xorRules : Obligations.XorRules :=
  binaryForms_of_binary aluXor ⟨rfl, rfl⟩ (encodesImm_of_row rfl fun _ => rfl)
    (encodesReg_of_row rfl fun _ => rfl) (encodesRegReg_of_row rfl fun _ _ => rfl)
    (encodesImmReg_of_row rfl fun _ _ => rfl)
    exec_xor_eq exec_xori_eq exec_xorr_eq exec_xorrr_eq exec_xorir_eq
    fun s _ _ => writes_binary_of_wrap8 s rfl rfl

/-! ### shl and shr -/

section count
variable {d v : Int}

/-- A negative count faults (R220, R236). -/
theorem aluShl_of_neg (h : v < 0) : aluShl d v = .error .negativeShiftCount := if_pos h

/-- Any other count shifts left (R220). -/
theorem aluShl_of_nonneg (h : 0 ≤ v) : aluShl d v = .ok (norm8 (d * 2 ^ v.toNat)) :=
  if_neg (Int.not_lt.mpr h)

/-- A negative count faults (R220, R236). -/
theorem aluShr_of_neg (h : v < 0) : aluShr d v = .error .negativeShiftCount := if_pos h

/-- Any other count shifts right (R220). -/
theorem aluShr_of_nonneg (h : 0 ≤ v) : aluShr d v = .ok (d.fdiv (2 ^ v.toNat)) :=
  if_neg (Int.not_lt.mpr h)

end count

section fullWidth
variable {d : Int} {n : Nat}

/-- From a count of 8 on, a left shift leaves nothing in the low 8 bits (R220). -/
theorem wrap8_mul_two_pow_of_le (h : 8 ≤ n) : wrap8 (d * 2 ^ n) = wrap8 0 := by
  have multiple : (2 : Int) ^ 8 ∣ d * 2 ^ n := Dvd.dvd.mul_left (pow_dvd_pow 2 h) d
  refine BitVec.eq_of_toInt_eq ?_
  simp only [wrap8, BitVec.toInt_ofInt]
  simpa using Int.bmod_eq_zero_of_dvd multiple

/-- From a count of 8 on, a right shift of a value in range leaves its sign alone: -1 or 0 (R220). -/
theorem fdiv_two_pow_of_le (h : 8 ≤ n) (low : -128 ≤ d) (high : d ≤ 127) :
    d.fdiv (2 ^ n) = if d < 0 then -1 else 0 := by
  have large : (2 : Int) ^ 8 ≤ 2 ^ n := pow_le_pow_right₀ one_le_two h
  rw [Int.fdiv_eq_ediv_of_nonneg d (by omega)]
  split
  next neg => exact Int.ediv_eq_neg_one_of_neg_of_le neg (by omega)
  next nonneg => exact Int.ediv_eq_zero_of_lt (by omega) (by omega)

end fullWidth

/-- Settles O34: a negative count faults before anything is written; every other count writes the shifted
value, normalized, which from 8 on is 0. -/
theorem shlRules : Obligations.ShlRules := by
  refine binaryForms_of_binary aluShl ⟨rfl, rfl⟩ (encodesImm_of_row rfl fun _ => rfl)
    (encodesReg_of_row rfl fun _ => rfl) (encodesRegReg_of_row rfl fun _ _ => rfl)
    (encodesImmReg_of_row rfl fun _ _ => rfl)
    exec_shl_eq exec_shli_eq exec_shlr_eq exec_shlrr_eq exec_shlir_eq
    fun s o k => ⟨fun neg => ?_, fun nonneg => ?_, fun wide => ?_⟩
  · exact ends_binary_of_error s (aluShl_of_neg neg)
  · exact writes_binary_of_norm8 s (aluShl_of_nonneg nonneg)
  · refine writes_binary_of_wrap8 s (aluShl_of_nonneg (by omega)) ?_
    rw [wrap8_norm8, wrap8_mul_two_pow_of_le (by omega)]

/-- Settles O35: a negative count faults before anything is written; every other count writes the floored
quotient, which from 8 on is the sign of the destination. -/
theorem shrRules : Obligations.ShrRules := by
  refine binaryForms_of_binary aluShr ⟨rfl, rfl⟩ (encodesImm_of_row rfl fun _ => rfl)
    (encodesReg_of_row rfl fun _ => rfl) (encodesRegReg_of_row rfl fun _ _ => rfl)
    (encodesImmReg_of_row rfl fun _ _ => rfl)
    exec_shr_eq exec_shri_eq exec_shrr_eq exec_shrrr_eq exec_shrir_eq
    fun s o k => ⟨fun neg => ?_, fun nonneg => ?_, fun wide low high => ?_⟩
  · exact ends_binary_of_error s (aluShr_of_neg neg)
  · exact ⟨_, _, floored_fdiv_fmod (rfRead s k) (2 ^ (val s o).toNat),
      writes_binary_of_wrap8 s (aluShr_of_nonneg nonneg) rfl⟩
  · have count : 8 ≤ (val s o).toNat := by omega
    rw [← fdiv_two_pow_of_le count low high]
    exact writes_binary_of_wrap8 s (aluShr_of_nonneg (by omega)) rfl

end Sys2Proof.Machine
end

section
/-! SUPPORT. Jumps (spec/47_control.md): the statements of that family. -/

namespace Sys2Proof.Machine

/-- A jump is an assignment to `ip` (R180, R181). -/
theorem jumpTo_eq_assign (s : State) (n : Int) : jumpTo n s = assign (.reg .ip) n s := rfl

/-- What writes `n` to `ip` jumps to `n` modulo 256: the one name it may change is `ip` (R205, R218). -/
theorem jumps_of_writes_ip {s : State} {n : Int} {o : Result} (h : Writes s (.reg .ip) n o) :
    Jumps s (BitVec.ofInt 8 n) o := by
  obtain ⟨t, answer, -, names, ip, mem, channels, run⟩ := h
  refine ⟨t, answer, ?_, fun k hk _ => ?_, mem, channels, run⟩
  · rw [ip, if_pos rfl]
  · exact names k hk fun isIp => hk (List.mem_singleton.mp isIp)

/-- The jump to `n` goes to `n` modulo 256, or falls through from its own last byte (R180, R205). -/
theorem jumps_jumpTo (s : State) (n : Int) : Jumps s (BitVec.ofInt 8 n) (jumpTo n s) := by
  rw [jumpTo_eq_assign]
  exact jumps_of_writes_ip (writes_assign s (.reg .ip) n n rfl)

/-- Settles O41: both forms are the jump to the value of their operand. -/
theorem jumpRules : Obligations.JumpRules := by
  refine ⟨encodesImm_of_row rfl fun _ => rfl, encodesReg_of_row rfl fun _ => rfl,
    fun s => ⟨fun n => ?_, fun k => ?_⟩⟩
  · rw [exec_jmpi_eq]
    exact jumps_jumpTo s n
  · rw [exec_jmpr_eq, nameValue_eq]
    exact jumps_jumpTo s (rfRead s k)

end Sys2Proof.Machine
end

section
/-! SUPPORT. Call and return (spec/49_call_ret.md): the statements of that family. -/

namespace Sys2Proof.Machine

/-- Raising a fault ends the run with its cause and changes nothing else, `ip` included (R231, R238). -/
theorem ends_raise (s : State) (cause : FaultCause) : Ends s (.faulted cause) (raise cause s) := by
  rw [raise_eq]
  exact ends_endRun s (.faulted cause)

/-- Settles O46: each of the three operations is the fault Unimplemented with its own opcode, so its operand
is decoded (a bad index of `callr` refused there) and never used (R197 to R199; decision D2). -/
theorem callAndReturnRules : Obligations.CallAndReturnRules := by
  refine ⟨encodesImm_of_row rfl fun _ => rfl, encodesReg_of_row rfl fun _ => rfl, ⟨rfl, rfl⟩,
    fun s => ⟨fun n => ?calli, fun k => ?callr, ?ret⟩⟩
  case calli =>
    rw [exec_calli_eq]
    exact ends_raise s (.unimplemented 97)
  case callr =>
    rw [exec_callr_eq]
    exact ends_raise s (.unimplemented 98)
  case ret =>
    rw [exec_ret_eq]
    exact ends_raise s (.unimplemented 99)

end Sys2Proof.Machine
end

section
/-! SUPPORT. The encoder beside the decoder: both follow the opcode map, row by row
(spec/30_encoding.md R70 to R83). -/

namespace Sys2Proof

/-! ### The rows -/

/-- Each instruction of the row with opcode `op` has the operands and the bytes of the row's shape (R71). -/
def Row.Encodes (op : Byte) : Row → Prop
  | .none inst => inst.operands = [] ∧ encode inst = [op]
  | .i f => ∀ n, (f n).operands = [.imm n] ∧ encode (f n) = [op, wrap8 n]
  | .r f => ∀ k, (f k).operands = [.reg k] ∧ encode (f k) = [op, k.indexByte]
  | .ii f => ∀ n1 n2, (f n1 n2).operands = [.imm n1, .imm n2] ∧ encode (f n1 n2) = [op, wrap8 n1, wrap8 n2]
  | .ir f => ∀ n k, (f n k).operands = [.imm n, .reg k] ∧ encode (f n k) = [op, wrap8 n, k.indexByte]
  | .ri f => ∀ k n, (f k n).operands = [.reg k, .imm n] ∧ encode (f k n) = [op, k.indexByte, wrap8 n]
  | .rr f => ∀ k1 k2, (f k1 k2).operands = [.reg k1, .reg k2] ∧ encode (f k1 k2) = [op, packByte k1 k2]

/-- The instruction is the row's, with some operands. -/
def Row.Makes (inst : Instr) : Row → Prop
  | .none bare => inst = bare
  | .i f => ∃ n, inst = f n
  | .r f => ∃ k, inst = f k
  | .ii f => ∃ n1 n2, inst = f n1 n2
  | .ir f => ∃ n k, inst = f n k
  | .ri f => ∃ k n, inst = f k n
  | .rr f => ∃ k1 k2, inst = f k1 k2

/-- The opcode map and the encoder agree on every row (R76). -/
theorem Row.encodes_of_rowOf {op : Byte} {row : Row} (h : rowOf (uint op) = some row) :
    row.Encodes op := by
  obtain ⟨n, hn⟩ : ∃ n, uint op = n := ⟨_, rfl⟩
  obtain rfl : BitVec.ofNat 8 n = op := by simp [← hn, uint]
  rw [hn] at h
  unfold rowOf at h
  split at h <;> cases h <;> simp [Row.Encodes, Instr.operands, encode]

/-- Every instruction stands in the opcode map, at the first byte of its encoding (R76). -/
theorem exists_row (i : Instr) :
    ∃ op row, rowOf (uint op) = some row ∧ row.Makes i := by
  refine ⟨(encode i).headD 0, ?_⟩
  cases i <;> exact ⟨_, rfl, by simp [Row.Makes]⟩

/-! ### Names -/

open Machine

/-- The name at an index has that index (R20, R27). -/
theorem combinedIndex_of_ofIndex {n : Nat} {k : RegOrFlag} (h : RegOrFlag.ofIndex n = some k) :
    combinedIndex k = n := by
  unfold RegOrFlag.ofIndex at h
  split at h <;> cases h <;> rfl

/-- The byte a name was read from is the name's byte: no bit of it is ignored (R73, R83). -/
theorem indexByte_of_ofIndex {x : Byte} {k : RegOrFlag} (h : RegOrFlag.ofIndex (uint x) = some k) :
    k.indexByte = x := by
  rw [indexByte_eq, indexCell, combinedIndex_of_ofIndex h]
  simp [uint]

/-- The packed byte two names were read from is their packed byte (R74, R83). -/
theorem packByte_of_ofIndex {x : Byte} {k1 k2 : RegOrFlag}
    (high : RegOrFlag.ofIndex (highNibble x) = some k1) (low : RegOrFlag.ofIndex (lowNibble x) = some k2) :
    packByte k1 k2 = x := by
  rw [packByte_eq, combinedIndex_of_ofIndex high, combinedIndex_of_ofIndex low, highNibble, lowNibble,
    Nat.div_add_mod]
  simp

/-- An instruction that a named operand gives has a name in its index byte (R73). -/
theorem withName_eq_instr {index : Nat} {f : RegOrFlag → Decoded} {i : Instr} :
    withName index f = .instr i ↔ ∃ k, RegOrFlag.ofIndex index = some k ∧ f k = .instr i := by
  unfold withName
  split <;> simp_all

/-! ### Both round trips, for a row -/

/-- An instruction is well formed when its immediates are in the signed range of a byte (R72). -/
theorem wellFormed_iff {i : Instr} :
    i.wellFormed = true ↔ ∀ n, .imm n ∈ i.operands → -128 ≤ n ∧ n ≤ 127 := by
  rw [Instr.wellFormed, List.all_eq_true]
  constructor
  · intro h n hn
    simpa [Operand.wellFormed] using h _ hn
  · intro h o ho
    cases o with
    | imm n => simpa [Operand.wellFormed] using h n ho
    | reg k => rfl

section row
variable {op : Byte} {row : Row} {i : Instr} {operands : List Byte}

/-- After an opcode of the map, its row decodes the operand bytes (R78). -/
theorem decodeInstruction_cons (hrow : rowOf (uint op) = some row) :
    decodeInstruction (op :: operands) = row.decode operands := by
  simp only [decodeInstruction, hrow]

/-- The row's decoder reads the bytes of its well-formed instructions back (R79). -/
theorem Row.decode_encode (henc : row.Encodes op) (hmakes : row.Makes i) (hwf : i.wellFormed = true) :
    ∃ operands, encode i = op :: operands ∧ row.decode operands = .instr i := by
  have imm (n : Int) (hn : .imm n ∈ i.operands) : sint (wrap8 n) = n := by
    obtain ⟨low, high⟩ := wellFormed_iff.1 hwf n hn
    exact sint_wrap8 low high
  have name (k : RegOrFlag) (f : RegOrFlag → Decoded) : withName (uint k.indexByte) f = f k := by
    rw [indexByte_eq, uint_indexCell, withName_combinedIndex]
  cases row with
  | none bare =>
    subst hmakes
    exact ⟨_, henc.2, rfl⟩
  | i f =>
    obtain ⟨n, rfl⟩ := hmakes
    obtain ⟨hops, hbytes⟩ := henc n
    exact ⟨_, hbytes, by simp only [Row.decode, imm n (by simp [hops])]⟩
  | r f =>
    obtain ⟨k, rfl⟩ := hmakes
    exact ⟨_, (henc k).2, by simp only [Row.decode, name]⟩
  | ii f =>
    obtain ⟨n1, n2, rfl⟩ := hmakes
    obtain ⟨hops, hbytes⟩ := henc n1 n2
    exact ⟨_, hbytes, by simp only [Row.decode, imm n1 (by simp [hops]), imm n2 (by simp [hops])]⟩
  | ir f =>
    obtain ⟨n, k, rfl⟩ := hmakes
    obtain ⟨hops, hbytes⟩ := henc n k
    exact ⟨_, hbytes, by simp only [Row.decode, imm n (by simp [hops]), name]⟩
  | ri f =>
    obtain ⟨k, n, rfl⟩ := hmakes
    obtain ⟨hops, hbytes⟩ := henc k n
    exact ⟨_, hbytes, by simp only [Row.decode, imm n (by simp [hops]), name]⟩
  | rr f =>
    obtain ⟨k1, k2, rfl⟩ := hmakes
    refine ⟨_, (henc k1 k2).2, ?_⟩
    simp only [Row.decode, packByte_eq, highNibble_pack, lowNibble_pack, withName_combinedIndex]

/-- Operand bytes the row's decoder reads are those of a well-formed instruction (R83). -/
theorem Row.encode_of_decode (henc : row.Encodes op) (h : row.decode operands = .instr i) :
    i.wellFormed = true ∧ encode i = op :: operands := by
  rw [wellFormed_iff]
  cases row with
  | none bare =>
    match operands, h with
    | [], rfl => exact ⟨by simp [henc.1], henc.2⟩
  | i f =>
    match operands, h with
    | [x], rfl =>
      obtain ⟨hops, hbytes⟩ := henc (sint x)
      exact ⟨by simp [hops, sint_bounds], by rw [hbytes, wrap8_sint]⟩
  | r f =>
    match operands, h with
    | [x], h =>
      obtain ⟨k, hk, heq⟩ := withName_eq_instr.1 h
      cases heq
      obtain ⟨hops, hbytes⟩ := henc k
      exact ⟨by simp [hops], by rw [hbytes, indexByte_of_ofIndex hk]⟩
  | ii f =>
    match operands, h with
    | [x, y], rfl =>
      obtain ⟨hops, hbytes⟩ := henc (sint x) (sint y)
      exact ⟨by simp [hops, sint_bounds], by rw [hbytes, wrap8_sint, wrap8_sint]⟩
  | ir f =>
    match operands, h with
    | [x, y], h =>
      obtain ⟨k, hk, heq⟩ := withName_eq_instr.1 h
      cases heq
      obtain ⟨hops, hbytes⟩ := henc (sint x) k
      exact ⟨by simp [hops, sint_bounds], by rw [hbytes, wrap8_sint, indexByte_of_ofIndex hk]⟩
  | ri f =>
    match operands, h with
    | [x, y], h =>
      obtain ⟨k, hk, heq⟩ := withName_eq_instr.1 h
      cases heq
      obtain ⟨hops, hbytes⟩ := henc k (sint y)
      exact ⟨by simp [hops, sint_bounds], by rw [hbytes, wrap8_sint, indexByte_of_ofIndex hk]⟩
  | rr f =>
    match operands, h with
    | [x], h =>
      obtain ⟨k1, hk1, h'⟩ := withName_eq_instr.1 h
      obtain ⟨k2, hk2, heq⟩ := withName_eq_instr.1 h'
      cases heq
      obtain ⟨hops, hbytes⟩ := henc k1 k2
      exact ⟨by simp [hops], by rw [hbytes, packByte_of_ofIndex hk1 hk2]⟩

end row

/-- Bytes that decode are an opcode of the map and as many operand bytes as its row has (R78). -/
theorem exists_row_of_instr {bytes : List Byte} {i : Instr} (h : decodeInstruction bytes = .instr i) :
    ∃ op operands row, bytes = op :: operands ∧ rowOf (uint op) = some row ∧
      operands.length = row.operandBytes := by
  cases bytes with
  | nil => cases h
  | cons op operands =>
    cases hrow : rowOf (uint op) with
    | none => simp [decodeInstruction, hrow] at h
    | some row =>
      refine ⟨op, operands, row, rfl, hrow, ?_⟩
      by_contra hlen
      simp [decodeInstruction_incomplete hrow hlen] at h

/-- What stands after the bytes of an instruction has no part in decoding it (R70, R78). -/
theorem decodePrefix_append {bytes : List Byte} {i : Instr} (h : decodeInstruction bytes = .instr i)
    (rest : List Byte) : decodePrefix (bytes ++ rest) = .instr i := by
  obtain ⟨op, operands, row, rfl, hrow, hlen⟩ := exists_row_of_instr h
  have own : (operands ++ rest).take row.operandBytes = operands := by simp [← hlen]
  simpa only [List.cons_append, decodePrefix, operandLength, hrow, Option.map_some, Option.getD_some,
    own] using h

/-! ### The statements -/

/-- Settles O1: the eight words, decoded. -/
theorem sampleWordsDecode : Obligations.SampleWordsDecode :=
  ⟨rfl, rfl, rfl, rfl, rfl, rfl, rfl, rfl⟩

/-- Settles O2: the instruction's row reads back what the encoder wrote for it. -/
theorem decodeOfEncode : Obligations.DecodeOfEncode := by
  intro i hwf
  obtain ⟨op, row, hrow, hmakes⟩ := exists_row i
  obtain ⟨operands, hbytes, hdec⟩ := Row.decode_encode (Row.encodes_of_rowOf hrow) hmakes hwf
  rw [hbytes, decodeInstruction_cons hrow, hdec]

/-- Settles O3: the bytes are those of the row that decoded them. -/
theorem encodeOfDecode : Obligations.EncodeOfDecode := by
  intro bytes i h
  obtain ⟨op, operands, row, rfl, hrow, -⟩ := exists_row_of_instr h
  rw [decodeInstruction_cons hrow] at h
  exact Row.encode_of_decode (Row.encodes_of_rowOf hrow) h

/-- Settles O4: decoding at the head answers the first of the two encodings, so it cannot answer another. -/
theorem encodingIsPrefixFree : Obligations.EncodingIsPrefixFree := by
  intro i j hi hj xs ys
  have atHead := decodePrefix_append (decodeOfEncode i hi) xs
  refine ⟨fun same => ?_, atHead⟩
  have other := decodePrefix_append (decodeOfEncode j hj) ys
  rw [← same, atHead] at other
  exact Decoded.instr.inj other

end Sys2Proof
end

section
/-! SUPPORT. What an instruction that completes leaves in the names, and the encodings of shapes ii and ri
(spec/40_engine_and_operands.md R204, R205; 30_encoding.md R71 to R73). -/

namespace Sys2Proof.Machine

/-! ### Names after an update of one field -/

section fields
variable (s : State) (k : RegOrFlag)

@[simp] theorem rfRead_set_input (bytes : List Byte) : rfRead { s with input := bytes } k = rfRead s k := by
  cases k with
  | reg r => cases r <;> rfl
  | flag f => cases f <;> rfl

@[simp] theorem rfRead_set_output (bytes : List Byte) : rfRead { s with output := bytes } k = rfRead s k := by
  cases k with
  | reg r => cases r <;> rfl
  | flag f => cases f <;> rfl

theorem rfRead_set_sp (v : Byte) :
    rfRead { s with sp := v } k = if k = .reg .sp then sint v else rfRead s k := by
  cases k with
  | reg r => cases r <;> rfl
  | flag f => cases f <;> rfl

theorem rfRead_set_ip (v : Byte) :
    rfRead { s with ip := v } k = if k = .reg .ip then sint v else rfRead s k := by
  cases k with
  | reg r => cases r <;> rfl
  | flag f => cases f <;> rfl

theorem rfRead_settest (n : Int) (h : k ∉ [.flag .zf, .flag .sf, .flag .pf]) :
    rfRead (settest n s) k = rfRead s k := by
  cases k with
  | reg r => simp
  | flag f => cases f <;> simp_all [settest, State.getFlag]

end fields

/-- What the operation keeps of the names, the end of the instruction keeps too (R204, R205). -/
theorem namesKept_retire {s u : State} {changed : List RegOrFlag}
    (h : ∀ k, k ≠ .reg .ip → k ∉ changed → rfRead u k = rfRead s k) :
    NamesKept s (s.retire u) changed := by
  intro k hip hk
  rw [nameValue_eq, nameValue_eq, rfRead_retire s u k hip, h k hip hk]

/-! ### The two remaining shapes -/

section shapes
variable {op : Nat}

/-- A row of shape `ii` whose instructions encode as the opcode and two cells has the encoding of that shape
(R71, R72). -/
theorem encodesImmImm_of_row {f : Int → Int → Instr}
    (hrow : rowOf (uint (BitVec.ofNat 8 op)) = some (.ii f))
    (henc : ∀ n1 n2, encode (f n1 n2) = [BitVec.ofNat 8 op, wrap8 n1, wrap8 n2]) : EncodesImmImm op f := by
  refine fun x y => ⟨?_, ?_⟩
  · simp only [decodeInstruction, hrow, Row.decode, sint]
  · rw [henc, ← sint, ← sint, wrap8_sint, wrap8_sint]

/-- A row of shape `ri` whose instructions encode as the opcode, the index byte and the immediate's cell has
the encoding of that shape (R71 to R73, R81). -/
theorem encodesRegImm_of_row {f : RegOrFlag → Int → Instr}
    (hrow : rowOf (uint (BitVec.ofNat 8 op)) = some (.ri f))
    (henc : ∀ k n, encode (f k n) = [BitVec.ofNat 8 op, k.indexByte, wrap8 n]) : EncodesRegImm op f := by
  refine ⟨fun x k => ⟨?_, ?_⟩, fun x y hx => refusesIndex_of_decode ?_⟩
  · simp only [decodeInstruction, hrow, Row.decode, uint_indexCell, withName_combinedIndex, sint]
  · rw [henc, indexByte_eq, ← sint, wrap8_sint]
  · have unnamed : 12 ≤ uint x := hx
    simp only [decodeInstruction, hrow, Row.decode, withName_of_unnamed unnamed]

end shapes

end Sys2Proof.Machine
end

section
/-! SUPPORT. Character input and output (spec/41_halt_io.md R101 to R104): the statements of that family. -/

namespace Sys2Proof.Machine

/-- A byte written is one byte more of output (R39, R103). -/
theorem emits_putByte (s : State) (v : Byte) : Emits s v (putByte v s) := by
  rw [putByte_eq]
  refine ⟨_, rfl, rfl, rfl, by simp, namesKept_retire fun k _ _ => by simp, fun a => rfl, ?_⟩
  simp [RunGoesOn]

/-- With no input the instruction waits, and nothing changes (R244). -/
theorem getInto_of_no_input {s : State} (h : s.input = []) (k : RegOrFlag) : getInto k s = .next s := by
  simp only [getInto, h]

/-- With input its first byte is removed and written to the destination (R101, R102). -/
theorem receives_getInto {s : State} {v : Byte} {rest : List Byte} (h : s.input = v :: rest)
    (k : RegOrFlag) : Receives s k v rest (getInto k s) := by
  simp only [getInto, h]
  refine ⟨_, rfl, by simp, by simp, fun hip => ?_, namesKept_retire fun k' _ hk' => ?_, ?_,
    fun a => by simp, by simp [RunGoesOn]⟩
  · rw [nameValue_eq, rfRead_retire _ _ _ hip, rfRead_rfWrite, if_pos rfl, receivedValue_eq, uint]
  · rw [rfRead_rfWrite, if_neg (by simpa using hk'), rfRead_set_input]
  · simp only [State.ip_retire, ip_rfWrite, wrap8_uint, nextIp]
    split <;> simp

/-- Settles O20: both forms read into their destination, or wait. -/
theorem getcRules : Obligations.GetcRules := by
  refine ⟨⟨rfl, rfl⟩, encodesReg_of_row rfl fun _ => rfl, fun s => ⟨fun v rest h => ⟨?_, fun k => ?_⟩,
    fun h => ⟨?_, fun k => ?_⟩⟩⟩
  · rw [exec_getc_eq]
    exact receives_getInto h accumulator
  · rw [exec_getcr_eq]
    exact receives_getInto h k
  · rw [exec_getc_eq, getInto_of_no_input h]
  · rw [exec_getcr_eq, getInto_of_no_input h]

/-- Settles O21: both forms write one byte, the accumulator's cell or the immediate's. -/
theorem putcRules : Obligations.PutcRules := by
  refine ⟨⟨rfl, rfl⟩, encodesImm_of_row rfl fun _ => rfl, fun s => ⟨?_, fun n => ?_⟩⟩
  · rw [exec_putc_eq]
    exact emits_putByte s s.a
  · rw [exec_putci_eq]
    exact emits_putByte s (wrap8 n)

end Sys2Proof.Machine
end

section
/-! SUPPORT. Store, load and move (spec/45_memory_move.md R163 to R176): the statements of that family. -/

namespace Sys2Proof.Machine

/-- An address is the operand's value modulo 256 (R51, R218). -/
theorem addrOf_toNat (n : Int) : ((addrOf n).toNat : Int) = n % 256 := by
  simp only [addrOf, wrap8, BitVec.toNat_ofInt]
  omega

/-- A store writes the byte at its address and no other (R53, R163). -/
theorem stores_storeAt (s : State) (o : Operand) (v : Byte) :
    Stores s (addrOf (operandValue s o)) v (storeAt o v s) := by
  rw [storeAt_eq, operandValue_eq]
  refine ⟨_, rfl, by simp [Memory.read_write], fun b hb => by simp [Memory.read_write, hb],
    namesKept_retire fun k _ _ => by simp, by simp, by simp [ChannelsKept], by simp [RunGoesOn]⟩

/-- Settles O36: every form stores the cell of its value at the address of its first operand. -/
theorem storeRules : Obligations.StoreRules := by
  refine ⟨encodesImm_of_row rfl fun _ => rfl, encodesReg_of_row rfl fun _ => rfl,
    encodesImmImm_of_row rfl fun _ _ => rfl, encodesRegImm_of_row rfl fun _ _ => rfl,
    encodesRegReg_of_row rfl fun _ _ => rfl, encodesImmReg_of_row rfl fun _ _ => rfl,
    fun s => ⟨fun n => stores_storeAt s (.imm n) s.a, fun k => stores_storeAt s (.reg k) s.a,
      fun n1 n2 => stores_storeAt s (.imm n1) (wrap8 n2), fun k n => stores_storeAt s (.reg k) (wrap8 n),
      fun k1 k2 => ?_, fun n k => ?_, addrOf_toNat⟩⟩
  · rw [nameValue_eq s k2]
    exact stores_storeAt s (.reg k1) (wrap8 (rfRead s k2))
  · rw [nameValue_eq s k]
    exact stores_storeAt s (.imm n) (wrap8 (rfRead s k))

/-- A load writes the byte at its address to its destination (R52, R169). -/
theorem writes_loadInto (s : State) (o : Operand) (k : RegOrFlag) :
    Writes s k (s.mem.read (BitVec.ofInt 8 (operandValue s o))).toNat (loadInto o k s) := by
  rw [operandValue_eq]
  exact writes_assign s k _ _ rfl

/-- Settles O37: every form loads from the address of its first operand. -/
theorem loadRules : Obligations.LoadRules :=
  ⟨encodesImm_of_row rfl fun _ => rfl, encodesReg_of_row rfl fun _ => rfl,
    encodesImmReg_of_row rfl fun _ _ => rfl, encodesRegReg_of_row rfl fun _ _ => rfl,
    fun s => ⟨fun n => writes_loadInto s (.imm n) accumulator,
      fun k => writes_loadInto s (.reg k) accumulator, fun n k => writes_loadInto s (.imm n) k,
      fun k1 k2 => writes_loadInto s (.reg k1) k2⟩⟩

/-- A move writes its operand's value to its destination (R173). -/
theorem writes_assign_value (s : State) (o : Operand) (k : RegOrFlag) :
    Writes s k (operandValue s o) (assign k (val s o) s) := by
  rw [operandValue_eq]
  exact writes_assign s k _ _ rfl

/-- Settles O38: every form assigns the value of its source to its destination. -/
theorem movRules : Obligations.MovRules :=
  ⟨encodesImm_of_row rfl fun _ => rfl, encodesReg_of_row rfl fun _ => rfl,
    encodesRegReg_of_row rfl fun _ _ => rfl, encodesImmReg_of_row rfl fun _ _ => rfl,
    fun s => ⟨fun n => writes_assign_value s (.imm n) accumulator,
      fun k => writes_assign_value s (.reg k) accumulator,
      fun k1 k2 => writes_assign_value s (.reg k1) k2, fun n k => writes_assign_value s (.imm n) k⟩⟩

end Sys2Proof.Machine
end

section
/-! SUPPORT. Test and compare, and the conditional jumps (spec/46_flags.md R177 to R179; 47_control.md R182 to
R191): the statements of those families. -/

namespace Sys2Proof.Machine

/-! ### Test and compare -/

/-- A test leaves zero, sign and parity of its integer (R216). -/
theorem tests_settest (s : State) (n : Int) : Tests s n (complete s (settest n s)) := by
  rw [complete_settest_eq]
  refine ⟨_, rfl, ?zero, ?sign, ?parity, ?names, by simp, fun a => by simp, by simp [ChannelsKept],
    by simp [RunGoesOn]⟩
  case zero => exact decide_eq_true_iff
  case sign => exact decide_eq_true_iff
  case parity =>
    have count := popcount8_eq_bitSum n
    rw [wrap8] at count
    rw [← count]
    exact beq_iff_eq
  case names => exact namesKept_retire fun k _ hk => rfRead_settest s k n hk

/-- `cmpi` tests the exact difference (R178). -/
theorem tests_exec_cmpi (s : State) (n : Int) :
    Tests s (nameValue s accumulator - n) (exec (.cmpi n) s) := by
  rw [exec_cmpi_eq, nameValue_eq]
  exact tests_settest s _

/-- `cmpr` tests the exact difference (R179). -/
theorem tests_exec_cmpr (s : State) (k : RegOrFlag) :
    Tests s (nameValue s accumulator - nameValue s k) (exec (.cmpr k) s) := by
  rw [exec_cmpr_eq, nameValue_eq, nameValue_eq]
  exact tests_settest s _

/-- Settles O39: `testr` tests its operand, the compares the exact difference. -/
theorem testAndCompareRules : Obligations.TestAndCompareRules := by
  refine ⟨encodesReg_of_row rfl fun _ => rfl, encodesImm_of_row rfl fun _ => rfl,
    encodesReg_of_row rfl fun _ => rfl, fun s => ⟨fun k => ?_, tests_exec_cmpi s, tests_exec_cmpr s⟩⟩
  rw [exec_testr_eq, nameValue_eq]
  exact tests_settest s _

/-! ### Conditional jumps -/

/-- Completing with nothing written falls through (R205). -/
theorem fallsThrough_complete_self (s : State) : FallsThrough s (complete s s) :=
  ⟨_, rfl, by simp, namesKept_retire fun _ _ _ => rfl, fun _ => rfl, ⟨rfl, rfl⟩, ⟨rfl, rfl⟩⟩

/-- A conditional jump decides what its predicate says (R182 to R191, R205). -/
theorem jumpDecides_of_jumpIf {s : State} {n : Int} {f : Int → Instr} {p : Bool} {c : Prop}
    (hexec : exec (f n) s = jumpIf p n s) (hp : p = true ↔ c) : JumpDecides s n f c := by
  rw [JumpDecides, hexec]
  refine ⟨fun hc => ?_, fun hc => ?_⟩
  · rw [jumpIf, if_pos (hp.2 hc)]
    exact jumps_jumpTo s n
  · rw [jumpIf, if_neg (mt hp.1 hc)]
    exact fallsThrough_complete_self s

/-- Settles O42: each predicate is the flag, or the accumulator's cell, that its rule names. -/
theorem conditionalJumpRules : Obligations.ConditionalJumpRules := by
  refine ⟨?_, ?_, ?_, ?_, ?_, ?_, ?_, ?_, ?_, ?_⟩ <;>
    refine ⟨encodesImm_of_row rfl fun _ => rfl, fun s n => jumpDecides_of_jumpIf rfl ?_⟩
  all_goals simp [overflow, notOverflow, zero, notZero, parityEven, parityOdd, less, lessOrEqual,
      greaterOrEqual, accumulatorZero]

/-- A compare leaves whether the accumulator equals the operand, and whether it is less: the difference is
exact, so its sign is the order (R178, R179). -/
theorem flags_of_compare {s t : State} {v : Int}
    (h : (∃ n, v = n ∧ exec (.cmpi n) s = .next t) ∨
      ∃ k, v = nameValue s k ∧ exec (.cmpr k) s = .next t) :
    (t.zf = true ↔ s.a.toInt = v) ∧ (t.sf = true ↔ s.a.toInt < v) := by
  have tested : Tests s (s.a.toInt - v) (.next t) := by
    obtain ⟨n, rfl, answer⟩ | ⟨k, rfl, answer⟩ := h
    · exact answer ▸ tests_exec_cmpi s v
    · exact answer ▸ tests_exec_cmpr s k
  obtain ⟨_, answer, zf, sf, -⟩ := tested
  cases answer
  exact ⟨zf.trans sub_eq_zero, sf.trans sub_neg⟩

/-- Settles O40: the flags a compare left are the order itself, and each jump reads them off. -/
theorem compareDecidesSignedOrder : Obligations.CompareDecidesSignedOrder := by
  intro s t u v m compared hzf hsf
  obtain ⟨zf, sf⟩ := flags_of_compare compared
  rw [← hzf] at zf
  rw [← hsf] at sf
  refine ⟨?jl, ?jle, ?jge, ?jz, ?jnz⟩
  case jl => exact jumpDecides_of_jumpIf (exec_jli_eq u m) sf
  case jle =>
    refine jumpDecides_of_jumpIf (exec_jlei_eq u m) ?_
    rw [lessOrEqual, Bool.or_eq_true, sf, zf, le_iff_lt_or_eq]
  case jge =>
    refine jumpDecides_of_jumpIf (exec_jgei_eq u m) ?_
    rw [greaterOrEqual, Bool.not_eq_true', ← Bool.not_eq_true, sf, not_lt]
  case jz => exact jumpDecides_of_jumpIf (exec_jzi_eq u m) zf
  case jnz =>
    refine jumpDecides_of_jumpIf (exec_jnzi_eq u m) ?_
    rw [notZero, Bool.not_eq_true', ← Bool.not_eq_true, zf]

end Sys2Proof.Machine
end

section
/-! SUPPORT. The stack (spec/48_stack.md R192 to R196): the statements of that family. -/

namespace Sys2Proof.Machine

/-- A push stores its byte below the stack pointer, which it moves there (R192). -/
theorem pushes_pushValue (s : State) (v : Byte) : Pushes s v (pushValue v s) := by
  rw [pushValue_eq]
  refine ⟨_, rfl, rfl, by simp [Memory.read_write],
    fun b hb => (Memory.read_write _ _ _ _).trans (if_neg hb), namesKept_retire fun k _ hk => ?_,
    by simp, by simp [ChannelsKept], by simp [RunGoesOn]⟩
  rw [rfRead_store, rfRead_set_sp, if_neg (by simpa using hk)]

/-- A pop writes the byte at the stack pointer to its destination, then moves the stack pointer as it then
stands (R195). -/
theorem pops_popInto (s : State) (k : RegOrFlag) : Pops s k (popInto k s) := by
  rw [popInto_eq]
  refine ⟨_, rfl, fun hip hsp => ?value, ?sp, namesKept_retire fun k' _ hk' => ?names, ?ip,
    fun a => by simp, by simp [ChannelsKept], by simp [RunGoesOn]⟩
  case value =>
    rw [nameValue_eq, rfRead_retire _ _ _ hip, rfRead_set_sp, if_neg hsp, rfRead_rfWrite, if_pos rfl,
      receivedValue_eq, uint]
  case sp =>
    have sp := sp_rfWrite s k (uint (s.mem.read s.sp))
    simp only [State.retire, sp, wrap8_uint]
    split <;> rfl
  case names =>
    rw [List.mem_cons, List.mem_singleton, not_or] at hk'
    rw [rfRead_set_sp, if_neg hk'.2, rfRead_rfWrite, if_neg hk'.1]
  case ip =>
    simp only [State.ip_retire, ip_rfWrite, wrap8_uint, nextIp]
    split <;> simp

/-- Settles O43: every form pushes the cell its value had before the stack pointer moved. -/
theorem pushRules : Obligations.PushRules := by
  refine ⟨⟨rfl, rfl⟩, encodesImm_of_row rfl fun _ => rfl, encodesReg_of_row rfl fun _ => rfl,
    fun s => ⟨pushes_pushValue s s.a, fun n => pushes_pushValue s (wrap8 n), fun k => ?_⟩⟩
  rw [exec_pushr_eq, nameValue_eq]
  exact pushes_pushValue s (wrap8 (rfRead s k))

/-- Settles O44: both forms pop into their destination. -/
theorem popRules : Obligations.PopRules :=
  ⟨⟨rfl, rfl⟩, encodesReg_of_row rfl fun _ => rfl, fun s => ⟨pops_popInto s accumulator, pops_popInto s⟩⟩

/-! ### A pop after a push -/

/-- Each form of push pushes the byte its rule stores (R192 to R194). -/
theorem pushes_of_isPush {i : Instr} (h : IsPush i) (s : State) :
    ∃ v, storedByte s i = some v ∧ Pushes s v (exec i s) := by
  obtain ⟨-, -, -, rules⟩ := pushRules
  obtain ⟨push, pushi, pushr⟩ := rules s
  obtain rfl | ⟨n, rfl⟩ | ⟨k, rfl⟩ := h
  · exact ⟨_, rfl, push⟩
  · exact ⟨_, rfl, pushi n⟩
  · exact ⟨_, rfl, pushr k⟩

/-- Each form of pop leaves the byte at the stack pointer (R195, R196). -/
theorem popLeaves_of_isPopInto {j : Instr} {k : RegOrFlag} (h : IsPopInto j k) (u : State) :
    ∃ w, exec j u = .next w ∧ PopLeaves u w k (u.mem.read u.sp) := by
  have pops : Pops u k (exec j u) := by
    obtain ⟨rfl, rfl⟩ | rfl := h <;> exact pops_popInto u _
  obtain ⟨w, answer, value, sp, -, ip, -⟩ := pops
  exact ⟨w, answer, value, sp, ip⟩

/-- Settles O45: the pop finds the byte pushed at the stack pointer the push left, and moves it back. -/
theorem popUndoesPush : Obligations.PopUndoesPush := by
  intro i j s t u k hpush hpop answer hsp hmem
  obtain ⟨v, stored, _, answer', sp, byte, -⟩ := pushes_of_isPush hpush s
  cases answer.symm.trans answer'
  obtain ⟨w, popped, leaves⟩ := popLeaves_of_isPopInto hpop u
  rw [hmem, hsp, sp, byte] at leaves
  refine ⟨v, w, stored, popped, leaves, fun hk => ?_⟩
  obtain ⟨-, restored, -⟩ := leaves
  rw [restored, if_neg hk, hsp, sp, BitVec.sub_add_cancel]

end Sys2Proof.Machine
end

section
/-! SUPPORT. The step of a machine about to fetch (spec/40_engine_and_operands.md R200 to R206;
60_exceptions.md R232, R233, R244): the statements of that family. -/

namespace Sys2Proof.Machine

variable {s : State} {i : Instr}

/-! ### The three answers of the decoder -/

/-- A step that fetches an opcode and as many bytes as its row has is the decoder's answer to them (R206). -/
theorem step_of_row {op : Byte} {operands : List Byte} {row : Row} {r : Result} (hrun : s.run = .running)
    (hbuf : s.buf = []) (hmem : HoldsAt s.mem s.ip (op :: operands)) (hrow : rowOf (uint op) = some row)
    (hlen : operands.length = row.operandBytes)
    (hdone : decodeAttempt (fetched s (op :: operands)) = .done r) : step s = r := by
  have bounded : (op :: operands).length ≤ Config.maxIlen := by
    have hmax := operandBytes_lt_maxIlen row
    rw [List.length_cons]
    omega
  exact step_of_decodeAttempt hrun hbuf hmem (List.cons_ne_nil _ _) bounded
    (prefixesIncomplete_of_row hrow hlen) hdone

/-- A step that fetches the bytes of an instruction dispatches it on the last of them (R204, R206). -/
theorem step_of_instr {bytes : List Byte} (hrun : s.run = .running) (hbuf : s.buf = [])
    (hmem : HoldsAt s.mem s.ip bytes) (h : decodeInstruction bytes = .instr i) :
    step s = exec i (fetched s bytes) := by
  have attempt : decodeAttempt (fetched s bytes) = .done (exec i (fetched s bytes)) := by
    have hb : decodeInstruction (fetched s bytes).buf = .instr i := h
    simp only [decodeAttempt, hb]
  obtain ⟨op, operands, row, rfl, hrow, hlen⟩ := exists_row_of_instr h
  exact step_of_row hrun hbuf hmem hrow hlen attempt

/-- A fault on the first byte leaves `ip` where it was, and what was fetched is not kept (R231, R238). -/
theorem raise_fetched_singleton (cause : FaultCause) (op : Byte) :
    raise cause (fetched s [op]) = raise cause s := by
  simp [raise_eq, fetched, State.endRun]

/-- A step that fetches a byte from 100 up raises IllegalOpcode (R80, R232). -/
theorem step_of_illegalOpcode (hrun : s.run = .running) (hbuf : s.buf = [])
    (h : 100 ≤ (s.mem.read s.ip).toNat) : step s = raise (.illegalOpcode (s.mem.read s.ip)) s := by
  have hrow : rowOf (uint (s.mem.read s.ip)) = none := rowOf_eq_none.2 h
  have attempt : decodeAttempt (fetched s [s.mem.read s.ip]) =
      .done (raise (.illegalOpcode (s.mem.read s.ip)) s) := by
    rw [← raise_fetched_singleton _ (s.mem.read s.ip)]
    have hb : decodeInstruction (fetched s [s.mem.read s.ip]).buf = .illegalOpcode (s.mem.read s.ip) := by
      simp only [fetched, decodeInstruction, hrow]
    simp only [decodeAttempt, hb]
  refine step_of_decodeAttempt (bytes := [s.mem.read s.ip]) hrun hbuf ⟨rfl, trivial⟩
    (List.cons_ne_nil _ _) (by simp [Config.maxIlen]) ?_ attempt
  intro j hj
  obtain rfl : j = 0 := by simpa using hj
  rfl

/-! ### Every step that fetches -/

/-- Bytes read from consecutive addresses stand there (R54). -/
theorem holdsAt_map_range (m : Memory) (n : Nat) :
    ∀ (a : Addr) (f : Nat → Byte), (∀ j, f j = m.read (a + BitVec.ofNat 8 j)) →
      HoldsAt m a ((List.range n).map f) := by
  induction n with
  | zero => exact fun _ _ _ => trivial
  | succ n ih =>
    intro a f hf
    rw [List.range_succ_eq_map, List.map_cons, List.map_map]
    refine ⟨by simp [hf], ih (a + 1) _ fun j => ?_⟩
    have next : a + BitVec.ofNat 8 (j + 1) = a + 1 + BitVec.ofNat 8 j := by bv_omega
    simp [hf, next]

/-- The byte at `ip` and the `n` bytes after it. -/
def bytesAtIp (s : State) (n : Nat) : List Byte :=
  s.mem.read s.ip :: (List.range n).map fun j => s.mem.read (s.ip + BitVec.ofNat 8 (j + 1))

theorem holdsAt_bytesAtIp (s : State) (n : Nat) : HoldsAt s.mem s.ip (bytesAtIp s n) := by
  refine ⟨rfl, holdsAt_map_range _ _ _ _ fun j => ?_⟩
  have next : s.ip + BitVec.ofNat 8 (j + 1) = s.ip + 1 + BitVec.ofNat 8 j := by bv_omega
  rw [next]

/-- The byte at `ip` is no opcode, or it fixes how many bytes follow, and these decode or name no register
(R78 to R81). -/
theorem decode_bytesAtIp (s : State) :
    (operandLength (s.mem.read s.ip) = none ∧ 100 ≤ (s.mem.read s.ip).toNat) ∨
      ∃ n, operandLength (s.mem.read s.ip) = some n ∧
        (decodeInstruction (bytesAtIp s n) = .badRegisterIndex ∨
          ∃ i, decodeInstruction (bytesAtIp s n) = .instr i) := by
  cases hrow : rowOf (uint (s.mem.read s.ip)) with
  | none => exact .inl ⟨by simp [operandLength, hrow], rowOf_eq_none.1 hrow⟩
  | some row =>
    refine .inr ⟨row.operandBytes, by simp [operandLength, hrow], ?_⟩
    exact (decodeInstruction_complete hrow (by simp)).symm

/-- Everything a step of a machine about to fetch can do: raise one of the two faults of decoding, or
dispatch the instruction whose bytes stand at `ip` (R201 to R206). -/
theorem step_cases (hrun : s.run = .running) (hbuf : s.buf = []) :
    (100 ≤ (s.mem.read s.ip).toNat ∧ step s = raise (.illegalOpcode (s.mem.read s.ip)) s) ∨
    (∃ bytes, HoldsAt s.mem s.ip bytes ∧ decodeInstruction bytes = .badRegisterIndex ∧
      step s = raise .badRegisterIndex (fetched s bytes)) ∨
    (∃ i, i.wellFormed = true ∧ HoldsAt s.mem s.ip (encode i) ∧
      step s = exec i (fetched s (encode i))) := by
  obtain ⟨-, illegal⟩ | ⟨n, -, bad | ⟨i, hi⟩⟩ := decode_bytesAtIp s
  · exact .inl ⟨illegal, step_of_illegalOpcode hrun hbuf illegal⟩
  · have hmem := holdsAt_bytesAtIp s n
    exact .inr (.inl ⟨_, hmem, bad, step_of_badRegisterIndex hrun hbuf hmem bad⟩)
  · have hmem := holdsAt_bytesAtIp s n
    obtain ⟨wellFormed, bytes⟩ := encodeOfDecode _ _ hi
    rw [← bytes] at hmem hi
    exact .inr (.inr ⟨i, wellFormed, hmem, step_of_instr hrun hbuf hmem hi⟩)

/-! ### The statements -/

/-- Settles O5: the bytes of an instruction decode to it, so the step that fetches them dispatches it. -/
theorem stepRunsTheDecodedInstruction : Obligations.StepRunsTheDecodedInstruction :=
  fun _ i hrun hbuf hwf hmem => step_of_instr hrun hbuf hmem (decodeOfEncode i hwf)

/-- Settles O6: both steps give the decoder's answer to the bytes the opcode asks for. -/
theorem stepIsTheInstructionLevelStep : Obligations.StepIsTheInstructionLevelStep := by
  intro s hrun hbuf
  obtain ⟨length, illegal⟩ | ⟨n, length, bad | ⟨i, hi⟩⟩ := decode_bytesAtIp s
  · simp only [step_of_illegalOpcode hrun hbuf illegal, instructionLevelStep, length]
  · rw [step_of_badRegisterIndex hrun hbuf (holdsAt_bytesAtIp s n) bad]
    rw [bytesAtIp] at bad
    simp only [instructionLevelStep, length, bad, bytesAtIp]
  · rw [step_of_instr hrun hbuf (holdsAt_bytesAtIp s n) hi]
    rw [bytesAtIp] at hi
    simp only [instructionLevelStep, length, hi, bytesAtIp]

/-- Settles O7: the step answers the state it was given. -/
theorem endedRunsStay : Obligations.EndedRunsStay :=
  fun _ h => step_of_run_ne_running h

/-- Settles O8: the step raises IllegalOpcode on its first byte. -/
theorem illegalOpcodeFaults : Obligations.IllegalOpcodeFaults := by
  intro s hrun hbuf h
  rw [step_of_illegalOpcode hrun hbuf h]
  exact ends_raise s _

/-- Settles O9: the step raises BadRegisterIndex on the last of the bytes. -/
theorem badRegisterIndexFaults : Obligations.BadRegisterIndexFaults :=
  fun s _ hrun hbuf bad hmem => (refusesIndex_of_decode bad).2 s hrun hbuf hmem

/-! ### Waiting for input -/

/-- An instruction that waits is well formed: it has no immediate. -/
theorem wellFormed_of_reads (h : Reads i) : i.wellFormed = true := by
  obtain rfl | ⟨k, rfl⟩ := h <;> rfl

/-- An instruction that waits reads one byte into some name (R101, R102). -/
theorem exec_of_reads (h : Reads i) : ∃ k, ∀ s, exec i s = getInto k s := by
  obtain rfl | ⟨k, rfl⟩ := h
  · exact ⟨accumulator, exec_getc_eq⟩
  · exact ⟨k, fun s => exec_getcr_eq s k⟩

/-- A machine that holds the bytes of a well-formed instruction dispatches it without a fetch (R244). -/
theorem step_of_buf_eq_encode (hrun : s.run = .running) (hwf : i.wellFormed = true)
    (hbuf : s.buf = encode i) : step s = exec i s :=
  step_instr s hrun (by rw [hbuf, decodeOfEncode i hwf])

/-- Settles O11: without input the dispatch changes nothing, after the fetch and ever after; with the byte
delivered it completes. -/
theorem inputWait : Obligations.InputWait := by
  intro s i hreads hrun hinput
  have hwf := wellFormed_of_reads hreads
  obtain ⟨k, exec_eq⟩ := exec_of_reads hreads
  refine ⟨fun hbuf hmem => ?fetch, fun hbuf => ⟨?wait, fun v => ?complete⟩⟩
  case fetch =>
    rw [stepRunsTheDecodedInstruction s i hrun hbuf hwf hmem, exec_eq]
    exact getInto_of_no_input (s := fetched s (encode i)) hinput k
  case wait =>
    refine core_run_of_step_eq_self ?_
    rw [step_of_buf_eq_encode hrun hwf hbuf, exec_eq, getInto_of_no_input hinput]
  case complete =>
    have delivered : (s.deliver v).input = [v] := by simp [State.deliver, hinput]
    have answer : step (s.deliver v) = getInto k (s.deliver v) := by
      rw [step_of_buf_eq_encode (s := s.deliver v) hrun hwf hbuf, exec_eq]
    obtain ⟨t, next, consumed, -, -, -, -, -, goesOn⟩ := receives_getInto delivered k
    exact ⟨t, answer.trans next, consumed, goesOn⟩

end Sys2Proof.Machine
end

section
/-! SUPPORT. Memory as data, and what the host does (spec/20_memory.md section 1; 70_reset_and_hazards.md
R262 to R264): the statements of that family. -/

namespace Sys2Proof.Machine

/-! ### The canonical form is unique -/

/-- Below its first address a canonical list reads as unlisted. -/
theorem Memory.readAt_of_lt {low a : Nat} (h : a < low) :
    ∀ {m : Memory}, Memory.wfFrom low m = true → Memory.readAt m a = Memory.unlisted
  | [], _ => rfl
  | (key, v) :: rest, w => by
    obtain ⟨hlow, -, -, hrest⟩ := Memory.wfFrom_cons.1 w
    rw [Memory.readAt, if_neg (by omega)]
    exact Memory.readAt_of_lt (by omega) hrest

/-- A canonical list reads its first entry, and nothing there afterwards. -/
theorem Memory.readAt_cons {low key : Nat} {v : Byte} {rest : Memory} (a : Nat)
    (w : Memory.wfFrom low ((key, v) :: rest) = true) :
    Memory.readAt rest a = if a = key then Memory.unlisted else Memory.readAt ((key, v) :: rest) a := by
  obtain ⟨-, -, -, hrest⟩ := Memory.wfFrom_cons.1 w
  split
  next h => exact Memory.readAt_of_lt (by omega) hrest
  next h => rw [Memory.readAt, if_neg (Ne.symm h)]

/-- If two canonical lists read the same, the first address of the one is not before that of the other. -/
theorem Memory.key_le {low low' a b : Nat} {v w : Byte} {m m' : Memory}
    (hm : Memory.wfFrom low ((a, v) :: m) = true) (hm' : Memory.wfFrom low' ((b, w) :: m') = true)
    (h : ∀ x < Config.memSize, Memory.readAt ((a, v) :: m) x = Memory.readAt ((b, w) :: m') x) : b ≤ a := by
  by_contra hlt
  obtain ⟨-, ha, hv, -⟩ := Memory.wfFrom_cons.1 hm
  obtain ⟨-, hb, hw, hrest⟩ := Memory.wfFrom_cons.1 hm'
  have first : Memory.wfFrom b ((b, w) :: m') = true := Memory.wfFrom_cons.2 ⟨le_rfl, hb, hw, hrest⟩
  have same := h a ha
  rw [Memory.readAt_of_lt (by omega) first, Memory.readAt, if_pos rfl] at same
  exact hv same

/-- Two canonical lists that read the same at every address are the same list. -/
theorem Memory.eq_of_readAt :
    ∀ {m m' : Memory} {low : Nat}, Memory.wfFrom low m = true → Memory.wfFrom low m' = true →
      (∀ x < Config.memSize, Memory.readAt m x = Memory.readAt m' x) → m = m'
  | [], [], _, _, _, _ => rfl
  | [], (b, w) :: m', _, _, hm', h => by
    obtain ⟨-, hb, hw, -⟩ := Memory.wfFrom_cons.1 hm'
    have same := h b hb
    rw [Memory.readAt, Memory.readAt, if_pos rfl] at same
    exact absurd same.symm hw
  | (a, v) :: m, [], _, hm, _, h => by
    obtain ⟨-, ha, hv, -⟩ := Memory.wfFrom_cons.1 hm
    have same := h a ha
    rw [Memory.readAt, Memory.readAt, if_pos rfl] at same
    exact absurd same hv
  | (a, v) :: m, (b, w) :: m', low, hm, hm', h => by
    obtain rfl : a = b :=
      le_antisymm (Memory.key_le hm' hm fun x hx => (h x hx).symm) (Memory.key_le hm hm' h)
    obtain ⟨-, ha, -, hrest⟩ := Memory.wfFrom_cons.1 hm
    obtain ⟨-, -, -, hrest'⟩ := Memory.wfFrom_cons.1 hm'
    have value : v = w := by simpa [Memory.readAt] using h a ha
    have rest : m = m' := Memory.eq_of_readAt hrest hrest' fun x hx => by
      rw [Memory.readAt_cons x hm, Memory.readAt_cons x hm', h x hx]
    rw [value, rest]

/-- Settles O16: canonical lists are determined by their reads. -/
theorem equalReadsAreEqualMemories : Obligations.EqualReadsAreEqualMemories := by
  intro m m' hm hm' h
  refine Memory.eq_of_readAt hm hm' fun x hx => ?_
  have small : x < 256 := hx
  simpa [Memory.read, Nat.mod_eq_of_lt small] using h (BitVec.ofNat 8 x)

/-! ### Reset and loading -/

/-- Settles O17: every field of the reset state, read. -/
theorem resetState : Obligations.ResetState := by
  refine ⟨fun k => ?_, fun a => rfl, rfl, rfl, rfl, rfl⟩
  cases k with
  | reg r => cases r <;> rfl
  | flag f => cases f <;> rfl

/-- Copying an image leaves the addresses before and after it (R264). -/
theorem read_copyImage_outside (image : List Int) :
    ∀ (a : Nat) (m : Memory) (b : Addr), a + image.length ≤ 256 →
      b.toNat < a ∨ a + image.length ≤ b.toNat → (copyImage a image m).read b = m.read b := by
  induction image with
  | nil => exact fun _ _ _ _ _ => rfl
  | cons n rest ih =>
    intro a m b fits outside
    simp only [List.length_cons] at fits outside
    rw [copyImage, ih (a + 1) _ b (by omega) (by omega), Memory.read_write, if_neg]
    rintro rfl
    rw [BitVec.toNat_ofNat] at outside
    omega

/-- Copying an image puts each element at its address (R264). -/
theorem read_copyImage_inside (image : List Int) :
    ∀ (a : Nat) (m : Memory) (j : Nat) (h : j < image.length), a + image.length ≤ 256 →
      (copyImage a image m).read (BitVec.ofNat 8 (a + j)) = wrap8 image[j] := by
  induction image with
  | nil => exact fun _ _ _ h => absurd h (Nat.not_lt_zero _)
  | cons n rest ih =>
    intro a m j h fits
    rw [List.length_cons] at h fits
    rw [copyImage]
    cases j with
    | zero =>
      have before : (BitVec.ofNat 8 a).toNat < a + 1 := by
        rw [BitVec.toNat_ofNat]
        omega
      rw [show a + 0 = a from rfl, read_copyImage_outside rest (a + 1) _ _ (by omega) (.inl before),
        Memory.read_write, if_pos rfl, List.getElem_cons_zero]
    | succ j =>
      have next : a + (j + 1) = a + 1 + j := by omega
      rw [next, ih (a + 1) _ j (by omega) (by omega), List.getElem_cons_succ]

/-- The loader accepts an image by its length and the range of its elements (R264). -/
theorem loadable_iff (image : List Int) :
    (image.length ≤ Config.memSize ∧ image.all imageElementOk = true) ↔
      image.length ≤ 256 ∧ ∀ n ∈ image, -128 ≤ n ∧ n ≤ 255 := by
  simp [Config.memSize, imageElementOk]

/-- Settles O18: the image is copied over a zero memory from address 0, or refused. -/
theorem loadingAnImage : Obligations.LoadingAnImage := by
  intro image input
  refine ⟨fun ok => ?loaded, fun refused => ?refused⟩
  case loaded =>
    obtain ⟨fits, range⟩ := ok
    have loads : loadImage image = some (copyImage 0 image []) :=
      if_pos ((loadable_iff image).2 ⟨fits, range⟩)
    refine ⟨{ State.reset with mem := copyImage 0 image [], input := input }, ?_, fun j h => ?_,
      fun a after => ?_, fun k => ?_, rfl, rfl, rfl, rfl⟩
    · rw [State.start, loads, Option.map_some]
    · have inside := read_copyImage_inside image 0 [] j h (by omega)
      rwa [Nat.zero_add] at inside
    · exact read_copyImage_outside image 0 [] a (by omega) (.inr (by omega))
    · obtain ⟨names, -⟩ := resetState
      have zero := names k
      rw [nameValue_eq] at zero ⊢
      cases k <;> exact zero
  case refused =>
    have refuses : loadImage image = none := if_neg (mt (loadable_iff image).1 refused)
    rw [State.start, refuses, Option.map_none]

/-! ### The host and the invariant -/

/-- A running machine with canonical memory and an empty buffer meets the invariant. -/
theorem State.inv_of_buf_eq_nil {s : State} (memory : s.mem.wf = true) (run : s.run = .running)
    (buf : s.buf = []) : s.Inv where
  memory := memory
  buffer := by simp [buf]
  waiting _ := .inl buf
  legal cause h := by simp [run] at h

/-- Settles O12: memory and buffer are empty after reset. -/
theorem resetMeetsTheInvariant : Obligations.ResetMeetsTheInvariant :=
  State.inv_of_buf_eq_nil State.reset_mem_wf rfl rfl

/-- Settles O15: a start and `withFetchWord` leave an empty buffer and a canonical memory; a delivery touches
the input alone. -/
theorem hostActionsKeepTheInvariant : Obligations.HostActionsKeepTheInvariant := by
  refine ⟨fun image input s h => ?start, fun s v inv => ?deliver, fun s nbits w inv => ?word⟩
  case start =>
    obtain ⟨m, loaded, rfl⟩ := Option.map_eq_some_iff.1 h
    exact State.inv_of_buf_eq_nil (loadImage_wf loaded) rfl rfl
  case deliver =>
    exact ⟨inv.memory, inv.buffer, inv.waiting, inv.legal⟩
  case word =>
    exact State.inv_of_buf_eq_nil (s.withFetchWord_wf nbits w inv.memory) rfl rfl

end Sys2Proof.Machine
end

section
/-! SUPPORT. Every instruction as one of twelve operations on operands (spec/40_engine_and_operands.md R210
to R213, and the instruction families 41 to 49), so that a statement about all instructions is proved once for
each operation. `operationOf` is tied to the model by `exec_eq_perform`, and each table of Safety.lean is read
off the operation. -/

namespace Sys2Proof.Machine

/-! ### The operations -/

/-- The operators of the binary operations (43_arith.md, 44_bitwise_shift.md). -/
inductive BinaryOp where
  | add | sub | mul | div | mod | or | and | xor | shl | shr

/-- What an operator computes, or the fault it raises (R214, R219 to R221). -/
def BinaryOp.apply : BinaryOp → Int → Int → Except FaultCause Int
  | .add => aluAdd
  | .sub => aluSub
  | .mul => aluMul
  | .div => aluDiv
  | .mod => aluMod
  | .or => aluOr
  | .and => aluAnd
  | .xor => aluXor
  | .shl => aluShl
  | .shr => aluShr

/-- The operations that the instructions are forms of. An operand `o` is a source or an address, a name `k` a
destination. -/
inductive Operation where
  | halt
  | get (k : RegOrFlag)
  | put (o : Operand)
  | compute (f : Int → Int) (o : Operand) (k : RegOrFlag)
  | binary (op : BinaryOp) (o : Operand) (k : RegOrFlag)
  | store (address o : Operand)
  | load (address : Operand) (k : RegOrFlag)
  | test (f : Int → Int → Int) (o : Operand)
  | jump (predicate : State → Bool) (o : Operand)
  | push (o : Operand)
  | pop (k : RegOrFlag)
  | reserved (op : Byte)

/-- What an operation answers, by the model's shared operations. -/
def Operation.perform (s : State) : Operation → Result
  | .halt => .next (s.endRun .halted)
  | .get k => getInto k s
  | .put o => putByte (wrap8 (val s o)) s
  | .compute f o k => assign k (f (val s o)) s
  | .binary op o k => Machine.binary op.apply o k s
  | .store address o => storeAt address (wrap8 (val s o)) s
  | .load address k => loadInto address k s
  | .test f o => complete s (settest (f (rfRead s accumulator) (val s o)) s)
  | .jump p o => jumpIf (p s) (val s o) s
  | .push o => pushValue (wrap8 (val s o)) s
  | .pop k => popInto k s
  | .reserved op => raise (.unimplemented op) s

/-- The operation of each instruction. -/
def operationOf : Instr → Operation
  | .halt => .halt
  | .getc => .get accumulator
  | .getcr k => .get k
  | .putc => .put (.reg accumulator)
  | .putci n => .put (.imm n)
  | .not => .compute aluNot (.reg accumulator) accumulator
  | .notr k => .compute aluNot (.reg k) accumulator
  | .neg => .compute aluNeg (.reg accumulator) accumulator
  | .negr k => .compute aluNeg (.reg k) accumulator
  | .popcount => .compute aluPopcount (.reg accumulator) accumulator
  | .popcountr k => .compute aluPopcount (.reg k) accumulator
  | .clz => .compute aluClz (.reg accumulator) accumulator
  | .clzr k => .compute aluClz (.reg k) accumulator
  | .add => .binary .add (.reg accumulator) accumulator
  | .addi n => .binary .add (.imm n) accumulator
  | .addr k => .binary .add (.reg k) accumulator
  | .addrr k1 k2 => .binary .add (.reg k1) k2
  | .addir n k => .binary .add (.imm n) k
  | .sub => .binary .sub (.reg accumulator) accumulator
  | .subi n => .binary .sub (.imm n) accumulator
  | .subr k => .binary .sub (.reg k) accumulator
  | .subrr k1 k2 => .binary .sub (.reg k1) k2
  | .subir n k => .binary .sub (.imm n) k
  | .mul => .binary .mul (.reg accumulator) accumulator
  | .muli n => .binary .mul (.imm n) accumulator
  | .mulr k => .binary .mul (.reg k) accumulator
  | .mulrr k1 k2 => .binary .mul (.reg k1) k2
  | .mulir n k => .binary .mul (.imm n) k
  | .div => .binary .div (.reg accumulator) accumulator
  | .divi n => .binary .div (.imm n) accumulator
  | .divr k => .binary .div (.reg k) accumulator
  | .divrr k1 k2 => .binary .div (.reg k1) k2
  | .divir n k => .binary .div (.imm n) k
  | .mod => .binary .mod (.reg accumulator) accumulator
  | .modi n => .binary .mod (.imm n) accumulator
  | .modr k => .binary .mod (.reg k) accumulator
  | .modrr k1 k2 => .binary .mod (.reg k1) k2
  | .modir n k => .binary .mod (.imm n) k
  | .or => .binary .or (.reg accumulator) accumulator
  | .ori n => .binary .or (.imm n) accumulator
  | .orr k => .binary .or (.reg k) accumulator
  | .orrr k1 k2 => .binary .or (.reg k1) k2
  | .orir n k => .binary .or (.imm n) k
  | .and => .binary .and (.reg accumulator) accumulator
  | .andi n => .binary .and (.imm n) accumulator
  | .andr k => .binary .and (.reg k) accumulator
  | .andrr k1 k2 => .binary .and (.reg k1) k2
  | .andir n k => .binary .and (.imm n) k
  | .xor => .binary .xor (.reg accumulator) accumulator
  | .xori n => .binary .xor (.imm n) accumulator
  | .xorr k => .binary .xor (.reg k) accumulator
  | .xorrr k1 k2 => .binary .xor (.reg k1) k2
  | .xorir n k => .binary .xor (.imm n) k
  | .shl => .binary .shl (.reg accumulator) accumulator
  | .shli n => .binary .shl (.imm n) accumulator
  | .shlr k => .binary .shl (.reg k) accumulator
  | .shlrr k1 k2 => .binary .shl (.reg k1) k2
  | .shlir n k => .binary .shl (.imm n) k
  | .shr => .binary .shr (.reg accumulator) accumulator
  | .shri n => .binary .shr (.imm n) accumulator
  | .shrr k => .binary .shr (.reg k) accumulator
  | .shrrr k1 k2 => .binary .shr (.reg k1) k2
  | .shrir n k => .binary .shr (.imm n) k
  | .storei n => .store (.imm n) (.reg accumulator)
  | .storer k => .store (.reg k) (.reg accumulator)
  | .storeii n1 n2 => .store (.imm n1) (.imm n2)
  | .storeri k n => .store (.reg k) (.imm n)
  | .storerr k1 k2 => .store (.reg k1) (.reg k2)
  | .storeir n k => .store (.imm n) (.reg k)
  | .loadi n => .load (.imm n) accumulator
  | .loadr k => .load (.reg k) accumulator
  | .loadir n k => .load (.imm n) k
  | .loadrr k1 k2 => .load (.reg k1) k2
  | .movi n => .compute id (.imm n) accumulator
  | .movr k => .compute id (.reg k) accumulator
  | .movrr k1 k2 => .compute id (.reg k1) k2
  | .movir n k => .compute id (.imm n) k
  | .testr k => .test (fun _ v => v) (.reg k)
  | .cmpi n => .test (fun d v => d - v) (.imm n)
  | .cmpr k => .test (fun d v => d - v) (.reg k)
  | .jmpi n => .jump (fun _ => true) (.imm n)
  | .jmpr k => .jump (fun _ => true) (.reg k)
  | .joi n => .jump overflow (.imm n)
  | .jnoi n => .jump notOverflow (.imm n)
  | .jzi n => .jump zero (.imm n)
  | .jnzi n => .jump notZero (.imm n)
  | .jpei n => .jump parityEven (.imm n)
  | .jpoi n => .jump parityOdd (.imm n)
  | .jli n => .jump less (.imm n)
  | .jlei n => .jump lessOrEqual (.imm n)
  | .jgei n => .jump greaterOrEqual (.imm n)
  | .jazi n => .jump accumulatorZero (.imm n)
  | .push => .push (.reg accumulator)
  | .pushi n => .push (.imm n)
  | .pushr k => .push (.reg k)
  | .pop => .pop accumulator
  | .popr k => .pop k
  | .calli _ => .reserved 97
  | .callr _ => .reserved 98
  | .ret => .reserved 99

/-- An instruction answers what its operation does. -/
theorem exec_eq_perform (i : Instr) (s : State) : exec i s = (operationOf i).perform s := by
  cases i with
  | putc | storei | storer | push =>
    simp only [operationOf, Operation.perform, val_reg, rfRead_reg, wrap8_sint]
    rfl
  | _ => rfl

/-! ### The tables of the statements, read off the operation -/

/-- The names an operation writes. -/
def Operation.writes : Operation → List RegOrFlag
  | .get k => [k]
  | .compute _ _ k => [k]
  | .binary _ _ k => [k]
  | .load _ k => [k]
  | .test _ _ => [.flag .zf, .flag .pf, .flag .sf]
  | .jump _ _ => [.reg .ip]
  | .push _ => [.reg .sp]
  | .pop k => [k, .reg .sp]
  | .halt | .put _ | .store _ _ | .reserved _ => []

theorem writtenNames_eq (i : Instr) : writtenNames i = (operationOf i).writes := by
  cases i <;> rfl

/-- The address and the byte an operation stores. -/
def Operation.stores (s : State) : Operation → Option (Addr × Byte)
  | .store address o => some (addrOf (val s address), wrap8 (val s o))
  | .push o => some (s.sp - 1, wrap8 (val s o))
  | _ => none

theorem storedAddress_eq (s : State) (i : Instr) :
    storedAddress s i = ((operationOf i).stores s).map Prod.fst := by
  cases i <;> rfl

theorem storedByte_eq (s : State) (i : Instr) :
    storedByte s i = ((operationOf i).stores s).map Prod.snd := by
  cases i with
  | storei | storer | push =>
    simp only [operationOf, Operation.stores, val_reg, rfRead_reg, wrap8_sint]
    rfl
  | storerr | storeir | pushr =>
    simp only [storedByte, nameValue_eq]
    rfl
  | _ => rfl

/-- The source by which an operation divides. -/
def Operation.divisor : Operation → Option Operand
  | .binary .div o _ => some o
  | .binary .mod o _ => some o
  | _ => none

theorem divisorOf_eq (i : Instr) : divisorOf i = (operationOf i).divisor := by
  cases i <;> rfl

/-- The source by which an operation shifts. -/
def Operation.shiftCount : Operation → Option Operand
  | .binary .shl o _ => some o
  | .binary .shr o _ => some o
  | _ => none

theorem shiftCountOf_eq (i : Instr) : shiftCountOf i = (operationOf i).shiftCount := by
  cases i <;> rfl

theorem reserved_of_operationOf {i : Instr} {op : Byte} (h : operationOf i = .reserved op) :
    reservedOpcode i = some op := by
  cases i <;> cases h <;> rfl

theorem halt_of_operationOf {i : Instr} (h : operationOf i = .halt) : i = .halt := by
  cases i <;> cases h
  rfl

theorem reads_of_operationOf {i : Instr} {k : RegOrFlag} (h : operationOf i = .get k) : Reads i := by
  cases i <;> cases h
  case getc => exact .inl rfl
  case getcr => exact .inr ⟨_, rfl⟩

theorem put_of_operationOf {i : Instr} {o : Operand} (h : operationOf i = .put o) :
    (i = .putc ∧ o = .reg accumulator) ∨ ∃ n, i = .putci n ∧ o = .imm n := by
  cases i <;> cases h
  case putc => exact .inl ⟨rfl, rfl⟩
  case putci => exact .inr ⟨_, rfl, rfl⟩

/-- The sources and the destination of an operation. -/
def Operation.operands : Operation → List Operand
  | .get k | .pop k => [.reg k]
  | .put o | .test _ o | .jump _ o | .push o => [o]
  | .compute _ o k | .binary _ o k | .load o k => [o, .reg k]
  | .store address o => [address, o]
  | .halt | .reserved _ => []

/-- An operation names no operand but the instruction's and the accumulator (R212, R223). -/
theorem mem_operands_of_operationOf {i : Instr} {x : Operand} (h : x ∈ (operationOf i).operands) :
    x ∈ i.operands ∨ x = .reg accumulator := by
  cases i <;> simp [operationOf, Operation.operands] at h <;> simp [Instr.operands, h]

/-! ### Everything an operation can do -/

/-- The ways in which an operation ends the run. -/
inductive Operation.Ends (s : State) : Operation → Run → Prop
  | halt : Ends s .halt .halted
  | fault {op o k cause} : BinaryOp.apply op (rfRead s k) (val s o) = .error cause →
      Ends s (.binary op o k) (.faulted cause)
  | reserved {op} : Ends s (.reserved op) (.faulted (.unimplemented op))

/-- The states that an operation leaves for the end of the instruction. -/
inductive Operation.Leaves (s : State) : Operation → State → Prop
  | get {k v rest} : s.input = v :: rest → Leaves s (.get k) (rfWrite { s with input := rest } k (uint v))
  | put {o} : Leaves s (.put o) { s with output := s.output ++ [wrap8 (val s o)] }
  | compute {f o k} : Leaves s (.compute f o k) (rfWrite s k (f (val s o)))
  | binary {op o k n} : BinaryOp.apply op (rfRead s k) (val s o) = .ok n →
      Leaves s (.binary op o k) (rfWrite s k n)
  | store {address o} : Leaves s (.store address o) (s.store (addrOf (val s address)) (wrap8 (val s o)))
  | load {address k} :
      Leaves s (.load address k) (rfWrite s k (uint (s.mem.read (addrOf (val s address)))))
  | test {f o} : Leaves s (.test f o) (settest (f (rfRead s accumulator) (val s o)) s)
  | jump {p o} : Leaves s (.jump p o) { s with ip := if p s then wrap8 (val s o) else s.ip }
  | push {o} : Leaves s (.push o) ({ s with sp := s.sp - 1 }.store (s.sp - 1) (wrap8 (val s o)))
  | pop {k} : Leaves s (.pop k)
      { rfWrite s k (uint (s.mem.read s.sp)) with sp := (rfWrite s k (uint (s.mem.read s.sp))).sp + 1 }

/-- An operation waits for input, or ends the run, or completes (R204, R231, R244). -/
inductive Operation.Answers (s : State) (o : Operation) : State → Prop
  | waits {k} : o = .get k → s.input = [] → Answers s o s
  | ends {how} : o.Ends s how → Answers s o (s.endRun how)
  | completes {u} : o.Leaves s u → Answers s o (s.retire u)

/-- Every operation answers a next state, in one of the three ways. -/
theorem Operation.perform_answers (s : State) (o : Operation) :
    ∃ t, o.perform s = .next t ∧ o.Answers s t := by
  cases o with
  | halt => exact ⟨_, rfl, .ends .halt⟩
  | get k =>
    cases h : s.input with
    | nil => exact ⟨s, getInto_of_no_input h k, .waits rfl h⟩
    | cons v rest =>
      refine ⟨_, ?_, .completes (.get h)⟩
      simp only [Operation.perform, getInto, h, complete]
  | put o => exact ⟨_, rfl, .completes .put⟩
  | compute f o k => exact ⟨_, rfl, .completes .compute⟩
  | binary op o k =>
    cases h : op.apply (rfRead s k) (val s o) with
    | ok n => exact ⟨_, binary_ok s h, .completes (.binary h)⟩
    | error cause => exact ⟨_, binary_error s h, .ends (.fault h)⟩
  | store address o => exact ⟨_, rfl, .completes .store⟩
  | load address k => exact ⟨_, rfl, .completes .load⟩
  | test f o => exact ⟨_, rfl, .completes .test⟩
  | jump p o => exact ⟨_, jumpIf_eq s _ _, .completes .jump⟩
  | push o => exact ⟨_, rfl, .completes .push⟩
  | pop k => exact ⟨_, rfl, .completes .pop⟩
  | reserved op => exact ⟨_, rfl, .ends .reserved⟩

/-- Everything an instruction can answer. -/
theorem answers_of_exec {i : Instr} {s t : State} (h : exec i s = .next t) : (operationOf i).Answers s t := by
  obtain ⟨t', answer, answers⟩ := (operationOf i).perform_answers s
  rw [exec_eq_perform, answer] at h
  exact Host.Outcome.next.inj h ▸ answers

/-- Settles O47: so does the operation of every instruction. -/
theorem everyInstructionAnswers : Obligations.EveryInstructionAnswers := by
  intro i s
  obtain ⟨t, answer, -⟩ := (operationOf i).perform_answers s
  exact ⟨t, (exec_eq_perform i s).trans answer⟩

/-! ### What an operation that completes keeps -/

section leaves
variable {s u : State} {o : Operation}

theorem Operation.Leaves.run_eq (h : o.Leaves s u) : u.run = s.run := by
  cases h <;> simp

theorem Operation.Leaves.rfRead_eq (h : o.Leaves s u) {k : RegOrFlag} (hip : k ≠ .reg .ip)
    (hk : k ∉ o.writes) : rfRead u k = rfRead s k := by
  cases h with
  | get =>
    rw [Operation.writes, List.mem_singleton] at hk
    rw [rfRead_rfWrite, if_neg hk, rfRead_set_input]
  | compute | binary | load =>
    rw [Operation.writes, List.mem_singleton] at hk
    rw [rfRead_rfWrite, if_neg hk]
  | put => exact rfRead_set_output s k _
  | store => exact rfRead_store s _ _ k
  | test => exact rfRead_settest s k _ (by simp_all [Operation.writes])
  | jump => rw [rfRead_set_ip, if_neg hip]
  | push =>
    rw [Operation.writes, List.mem_singleton] at hk
    rw [rfRead_store, rfRead_set_sp, if_neg hk]
  | pop =>
    rw [Operation.writes, List.mem_cons, List.mem_singleton, not_or] at hk
    rw [rfRead_set_sp, if_neg hk.2, rfRead_rfWrite, if_neg hk.1]

theorem Operation.Leaves.ip_eq (h : o.Leaves s u) (hk : .reg .ip ∉ o.writes) : u.ip = s.ip := by
  cases h with
  | get | compute | binary | load =>
    rw [Operation.writes, List.mem_singleton] at hk
    rw [ip_rfWrite, if_neg (Ne.symm hk)]
  | pop =>
    rw [Operation.writes, List.mem_cons, not_or] at hk
    rw [ip_rfWrite, if_neg (Ne.symm hk.1)]
  | jump => exact absurd (List.mem_singleton.2 rfl) hk
  | put | store | test | push => rfl

/-- Memory is left as it was, or with the one byte stored (R53). -/
theorem Operation.Leaves.mem_cases (h : o.Leaves s u) :
    (o.stores s = none ∧ u.mem = s.mem) ∨
      ∃ a v, o.stores s = some (a, v) ∧ u.mem = s.mem.write a v := by
  cases h with
  | store => exact .inr ⟨_, _, rfl, rfl⟩
  | push => exact .inr ⟨_, _, rfl, rfl⟩
  | _ => exact .inl ⟨rfl, by simp⟩

/-- The output is left as it was, or with the byte of a `put` at its end (R39). -/
theorem Operation.Leaves.output_cases (h : o.Leaves s u) :
    u.output = s.output ∨ ∃ source, o = .put source ∧ u.output = s.output ++ [wrap8 (val s source)] := by
  cases h with
  | put => exact .inr ⟨_, rfl, rfl⟩
  | _ => exact .inl (by simp)

/-- The input is left as it was, or without the byte of a `get` at its front (R38). -/
theorem Operation.Leaves.input_cases (h : o.Leaves s u) :
    u.input = s.input ∨ ∃ k v, o = .get k ∧ s.input = v :: u.input := by
  cases h with
  | get available => exact .inr ⟨_, _, rfl, by simpa using available⟩
  | _ => exact .inl (by simp)

end leaves

/-! ### Ending a run -/

/-- The fault of an operator: a zero source of a division, a negative count of a shift (R235, R236). -/
theorem BinaryOp.apply_error {op : BinaryOp} {d v : Int} {cause : FaultCause}
    (h : op.apply d v = .error cause) :
    ((op = .div ∨ op = .mod) ∧ v = 0 ∧ cause = .divideByZero) ∨
      ((op = .shl ∨ op = .shr) ∧ v < 0 ∧ cause = .negativeShiftCount) := by
  cases op with
  | add | sub | mul | or | and | xor => cases h
  | div | mod =>
    simp only [BinaryOp.apply, aluDiv, aluMod] at h
    split at h
    next zero => cases h; simp [zero]
    next => cases h
  | shl | shr =>
    simp only [BinaryOp.apply, aluShl, aluShr] at h
    split at h
    next negative => cases h; simp [negative]
    next => cases h

/-- An operation ends a run in the ways the statements list (R230, R100). -/
theorem endsBy_of_ends {i : Instr} {s : State} {how : Run} (h : (operationOf i).Ends s how) :
    EndsBy s i how := by
  rw [EndsBy, divisorOf_eq, shiftCountOf_eq]
  generalize hop : operationOf i = o at h
  cases h with
  | halt => exact .inl ⟨halt_of_operationOf hop, rfl⟩
  | reserved => exact .inr (.inl ⟨_, reserved_of_operationOf hop, rfl⟩)
  | @fault op o k cause error =>
    obtain ⟨division, zero, rfl⟩ | ⟨shift, negative, rfl⟩ := BinaryOp.apply_error error
    · have divisor : (Operation.binary op o k).divisor = some o := by
        obtain rfl | rfl := division <;> rfl
      exact .inr (.inr (.inl ⟨o, divisor, (operandValue_eq s o).trans zero, rfl⟩))
    · have count : (Operation.binary op o k).shiftCount = some o := by
        obtain rfl | rfl := shift <;> rfl
      exact .inr (.inr (.inr ⟨o, count, (operandValue_eq s o).trans_lt negative, rfl⟩))

theorem Operation.Ends.ne_running {s : State} {o : Operation} {how : Run} (h : o.Ends s how) :
    how ≠ .running := by
  cases h <;> exact nofun

end Sys2Proof.Machine
end

section
/-! SUPPORT. What every instruction keeps, and how it ends a run (spec/10_state.md, 20_memory.md;
60_exceptions.md R230): the statements about all instructions. -/

namespace Sys2Proof.Machine

/-! ### Frames -/

/-- Settles O48: an operation that waits or ends the run changes no name, one that completes only those it
writes. -/
theorem onlyWrittenNamesChange : Obligations.OnlyWrittenNamesChange := by
  intro i s t h
  rw [writtenNames_eq]
  cases answers_of_exec h with
  | waits => exact fun _ _ _ => rfl
  | ends => exact fun k _ _ => by rw [nameValue_eq, nameValue_eq, rfRead_endRun]
  | completes leaves => exact namesKept_retire fun k hip hk => leaves.rfRead_eq hip hk

/-- An operation writes a flag that no test computes only as its named destination (R217, R223). -/
theorem Operation.mem_operands_of_mem_writes {o : Operation} {f : Flag} (hf : f = .cf ∨ f = .of)
    (h : .flag f ∈ o.writes) : Operand.reg (.flag f) ∈ o.operands := by
  cases o <;> simp [Operation.writes] at h
  case test => obtain rfl | rfl := hf <;> simp at h
  all_goals simp [Operation.operands, h]

/-- A rule that writes carry or overflow names it as an operand (decision D12). -/
theorem operand_of_mem_writtenNames {i : Instr} {f : Flag} (hf : f = .cf ∨ f = .of)
    (h : .flag f ∈ writtenNames i) : Operand.reg (.flag f) ∈ i.operands := by
  rw [writtenNames_eq] at h
  exact (mem_operands_of_operationOf (Operation.mem_operands_of_mem_writes hf h)).resolve_right nofun

/-- A flag whose value changed is one that the rule writes. -/
theorem mem_writtenNames_of_getFlag_ne {i : Instr} {s t : State} (h : exec i s = .next t) {f : Flag}
    (changed : t.getFlag f ≠ s.getFlag f) : .flag f ∈ writtenNames i := by
  by_contra hf
  have same := onlyWrittenNamesChange i s t h (.flag f) nofun hf
  rw [nameValue_eq, nameValue_eq, rfRead_flag, rfRead_flag] at same
  revert changed same
  cases t.getFlag f <;> cases s.getFlag f <;> simp [boolInt]

/-- Settles O49: a carry or overflow that changed was written, so it was named. -/
theorem carryAndOverflowAreNeverComputed : Obligations.CarryAndOverflowAreNeverComputed :=
  fun _ _ _ h => ⟨
    fun cf => operand_of_mem_writtenNames (.inl rfl) (mem_writtenNames_of_getFlag_ne h (f := .cf) cf),
    fun of => operand_of_mem_writtenNames (.inr rfl) (mem_writtenNames_of_getFlag_ne h (f := .of) of)⟩

/-- Settles O50: an operation leaves memory as it was, or with one byte stored at its address. -/
theorem onlyTheStoredByteChanges : Obligations.OnlyTheStoredByteChanges := by
  intro i s t h a other
  rw [storedAddress_eq] at other
  cases answers_of_exec h with
  | waits => rfl
  | ends => rfl
  | completes leaves =>
    rw [State.mem_retire]
    obtain ⟨-, same⟩ | ⟨b, v, stored, written⟩ := leaves.mem_cases
    · rw [same]
    · rw [stored] at other
      rw [written, Memory.read_write, if_neg fun here => other (congrArg some here.symm)]

/-- Settles O51: an operation leaves each channel as it was, but a `put` writes its byte and a `get` reads
one. -/
theorem onlyPutcAndGetcUseTheChannels : Obligations.OnlyPutcAndGetcUseTheChannels := by
  intro i s t h
  cases answers_of_exec h with
  | waits => exact ⟨.inl rfl, .inl rfl⟩
  | ends => exact ⟨.inl rfl, .inl rfl⟩
  | completes leaves =>
    rw [State.output_retire, State.input_retire]
    refine ⟨?output, ?input⟩
    case output =>
      refine leaves.output_cases.imp_right fun ⟨o, isPut, written⟩ => ?_
      obtain ⟨rfl, rfl⟩ | ⟨n, rfl, rfl⟩ := put_of_operationOf isPut
      · rw [val_reg, rfRead_reg, wrap8_sint] at written
        exact .inl ⟨rfl, written⟩
      · exact .inr ⟨n, rfl, written⟩
    case input =>
      exact leaves.input_cases.imp_right fun ⟨k, v, isGet, read⟩ => ⟨reads_of_operationOf isGet, v, read⟩

/-- Settles O54: an operation that completes and does not write `ip` leaves it to the engine's advance. -/
theorem sequentialUnlessIpIsWritten : Obligations.SequentialUnlessIpIsWritten := by
  intro i s t h _ running cleared waiting hip
  rw [writtenNames_eq] at hip
  cases answers_of_exec h with
  | waits => exact absurd cleared waiting
  | ends ending => exact absurd running ending.ne_running
  | completes leaves => rw [State.ip_retire, leaves.ip_eq hip, if_pos rfl]

/-! ### The end of a run -/

/-- An instruction that ends the run does it as its rule says and changes nothing else (R231). -/
theorem ends_of_exec {i : Instr} {s t : State} (h : exec i s = .next t) (running : s.run = .running)
    (ended : t.run ≠ .running) : Ends s t.run (exec i s) ∧ EndsBy s i t.run := by
  rw [h]
  cases answers_of_exec h with
  | waits => exact absurd running ended
  | ends ending => exact ⟨ends_endRun s _, endsBy_of_ends ending⟩
  | completes leaves => exact absurd (leaves.run_eq.trans running) ended

/-- Settles O53: of the three answers of an operation only the end of the run stops a running machine, and the
operation of an instruction ends it only as the rule says. -/
theorem howAnInstructionEndsARun : Obligations.HowAnInstructionEndsARun :=
  fun _ _ _ h running ended => ends_of_exec h running ended

/-- A reserved opcode is 97, 98 or 99 (R234). -/
theorem reservedOpcode_bounds {i : Instr} {op : Byte} (h : reservedOpcode i = some op) :
    97 ≤ op.toNat ∧ op.toNat ≤ 99 := by
  cases i <;> cases h <;> decide

/-- The fault of an instruction records a legal value (R230). -/
theorem legal_of_endsBy {s : State} {i : Instr} {cause : FaultCause} (h : EndsBy s i (.faulted cause)) :
    cause.legal := by
  obtain ⟨-, h⟩ | ⟨op, reserved, h⟩ | ⟨o, -, -, h⟩ | ⟨o, -, -, h⟩ := h <;> cases h
  · exact reservedOpcode_bounds reserved
  · trivial
  · trivial

end Sys2Proof.Machine
end

section
/-! SUPPORT. What every step keeps (spec/10_state.md sections 5 to 7; 60_exceptions.md sections 1 and 2): the
invariant, progress, precise faults and the order of the channels. -/

namespace Sys2Proof.Machine

variable {s t : State} {i : Instr}

/-! ### The invariant -/

/-- A run that ends with a legal cause meets the invariant: nothing is said of its buffer but its length. -/
theorem inv_endRun {how : Run} (memory : s.mem.wf = true) (ended : how ≠ .running)
    (legal : ∀ cause, how = .faulted cause → cause.legal) : (s.endRun how).Inv where
  memory := memory
  buffer := s.buf_endRun_length how
  waiting running := absurd running ended
  legal := legal

/-- An instruction's bytes are at most three (R8, R35). -/
theorem length_encode_le (hwf : i.wellFormed = true) : (encode i).length ≤ 3 := by
  obtain ⟨op, operands, row, bytes, -, length⟩ := exists_row_of_instr (decodeOfEncode i hwf)
  have longest := operandBytes_lt_maxIlen row
  rw [Config.maxIlen] at longest
  rw [bytes, List.length_cons, length]
  exact longest

/-- A state that waits with the bytes of its input instruction in the buffer meets the invariant (R244). -/
theorem inv_of_waiting (memory : s.mem.wf = true) (running : s.run = .running) (hreads : Reads i)
    (hbuf : s.buf = encode i) : s.Inv where
  memory := memory
  buffer := hbuf ▸ length_encode_le (wellFormed_of_reads hreads)
  waiting _ := .inr ⟨i, hreads, hbuf⟩
  legal cause h := by simp [running] at h

/-- An instruction dispatched with its bytes in the buffer answers a state that meets the invariant. -/
theorem inv_of_exec (memory : s.mem.wf = true) (running : s.run = .running) (hbuf : s.buf = encode i)
    (h : exec i s = .next t) : t.Inv := by
  cases answers_of_exec h with
  | waits isGet => exact inv_of_waiting memory running (reads_of_operationOf isGet) hbuf
  | ends ending =>
    exact inv_endRun memory ending.ne_running fun cause faulted =>
      legal_of_endsBy (faulted ▸ endsBy_of_ends ending)
  | completes leaves =>
    refine State.inv_of_buf_eq_nil ?_ (leaves.run_eq.trans running) rfl
    obtain ⟨-, same⟩ | ⟨a, v, -, written⟩ := leaves.mem_cases
    · exact (congrArg Memory.wf same).trans memory
    · exact (congrArg Memory.wf written).trans (Memory.wf_write a v memory)

/-- Everything a step from the invariant can do: nothing after the end of a run, a fault of decoding, or the
dispatch of an instruction whose bytes are in the buffer, fetched or waiting. -/
theorem step_cases_of_inv (inv : s.Inv) :
    (s.run ≠ .running ∧ step s = .next s) ∨
    (∃ u cause, cause.legal ∧ u.mem = s.mem ∧ step s = raise cause u) ∨
    ∃ u i, u.mem = s.mem ∧ u.run = .running ∧ u.buf = encode i ∧ step s = exec i u := by
  by_cases running : s.run = .running
  case neg => exact .inl ⟨running, step_of_run_ne_running running⟩
  case pos =>
    obtain empty | ⟨i, hreads, hbuf⟩ := inv.waiting running
    · obtain ⟨illegal, answer⟩ | ⟨bytes, -, -, answer⟩ | ⟨i, -, -, answer⟩ := step_cases running empty
      · exact .inr (.inl ⟨s, .illegalOpcode _, illegal, rfl, answer⟩)
      · exact .inr (.inl ⟨fetched s bytes, .badRegisterIndex, trivial, rfl, answer⟩)
      · exact .inr (.inr ⟨fetched s (encode i), i, rfl, running, rfl, answer⟩)
    · exact .inr (.inr ⟨s, i, rfl, running, hbuf,
        step_of_buf_eq_encode running (wellFormed_of_reads hreads) hbuf⟩)

/-- Settles O13: each of the answers of a step from the invariant meets it. -/
theorem stepKeepsTheInvariant : Obligations.StepKeepsTheInvariant := by
  intro s t inv h
  obtain ⟨-, answer⟩ | ⟨u, cause, legal, memory, answer⟩ | ⟨u, i, memory, running, hbuf, answer⟩ :=
    step_cases_of_inv inv
  · cases answer.symm.trans h
    exact inv
  · cases (answer.trans (raise_eq u cause)).symm.trans h
    refine inv_endRun (memory ▸ inv.memory) nofun fun c faulted => ?_
    cases faulted
    exact legal
  · exact inv_of_exec (memory ▸ inv.memory) running hbuf (answer.symm.trans h)

/-- Settles O14: each of the answers of a step from the invariant is a next state. -/
theorem stepAlwaysAnswers : Obligations.StepAlwaysAnswers := by
  intro s inv
  obtain ⟨-, answer⟩ | ⟨u, cause, -, -, answer⟩ | ⟨u, i, -, -, -, answer⟩ := step_cases_of_inv inv
  · exact ⟨s, answer⟩
  · exact ⟨_, answer.trans (raise_eq u cause)⟩
  · obtain ⟨t, next⟩ := everyInstructionAnswers i u
    exact ⟨t, answer.trans next⟩

/-! ### How a step ends a run -/

/-- The ways in which a step that fetches ends a run, each with the state the end is described from: the two
faults of decoding, and what the instruction's rule gives (R230, R100). -/
theorem how_step_ends (running : s.run = .running) (empty : s.buf = []) (h : step s = .next t)
    (ended : t.run ≠ .running) :
    (100 ≤ (s.mem.read s.ip).toNat ∧ t.run = .faulted (.illegalOpcode (s.mem.read s.ip)) ∧
        Ends s t.run (step s)) ∨
      (∃ bytes, HoldsAt s.mem s.ip bytes ∧ decodeInstruction bytes = .badRegisterIndex ∧
        t.run = .faulted .badRegisterIndex ∧ Ends (fetched s bytes) t.run (step s)) ∨
      ∃ i, i.wellFormed = true ∧ HoldsAt s.mem s.ip (encode i) ∧
        EndsBy (fetched s (encode i)) i t.run ∧ Ends (fetched s (encode i)) t.run (step s) := by
  have raised {cause u} (answer : step s = raise cause u) :
      t.run = .faulted cause ∧ Ends u t.run (step s) := by
    cases (answer.trans (raise_eq u cause)).symm.trans h
    exact ⟨rfl, answer ▸ ends_raise u cause⟩
  obtain ⟨illegal, answer⟩ | ⟨bytes, hmem, bad, answer⟩ | ⟨i, hwf, hmem, answer⟩ := step_cases running empty
  · exact .inl ⟨illegal, raised answer⟩
  · exact .inr (.inl ⟨bytes, hmem, bad, raised answer⟩)
  · obtain ⟨ends, endsBy⟩ := ends_of_exec (s := fetched s (encode i)) (answer.symm.trans h) running ended
    exact .inr (.inr ⟨i, hwf, hmem, endsBy, answer ▸ ends⟩)

/-- The rule of an instruction that waits for input ends no run (R244). -/
theorem not_endsBy_of_reads (h : Reads i) (how : Run) : ¬ EndsBy s i how := by
  obtain rfl | ⟨k, rfl⟩ := h <;> simp [EndsBy, reservedOpcode, divisorOf, shiftCountOf]

/-- Settles O57: the step of a waiting instruction ends no run, so the machine fetched. -/
theorem howAStepEndsARun : Obligations.HowAStepEndsARun := by
  intro s t inv running h ended
  have empty : s.buf = [] := by
    obtain empty | ⟨i, hreads, hbuf⟩ := inv.waiting running
    · exact empty
    · rw [step_of_buf_eq_encode running (wellFormed_of_reads hreads) hbuf] at h
      obtain ⟨-, endsBy⟩ := ends_of_exec h running ended
      exact absurd endsBy (not_endsBy_of_reads hreads t.run)
  exact ⟨empty, how_step_ends running empty h ended⟩

/-! ### Precise faults -/

/-- Fetching changes no name but `ip` (R201). -/
theorem nameValue_fetched {bytes : List Byte} {k : RegOrFlag} (h : k ≠ .reg .ip) :
    nameValue (fetched s bytes) k = nameValue s k := by
  cases k with
  | reg r =>
    cases r with
    | ip => exact absurd rfl h
    | _ => rfl
  | flag f => cases f <;> rfl

/-- The end of a run keeps every name but `ip`, every byte of memory and both channels. -/
theorem kept_of_ends {how : Run} {o : Result} (h : Ends s how o) (answer : o = .next t) :
    NamesKept s t [] ∧ MemoryKept s t ∧ ChannelsKept s t := by
  obtain ⟨t', next, -, -, kept⟩ := h
  cases next.symm.trans answer
  exact kept

/-- So does the end of a run after a fetch, seen from before it. -/
theorem kept_of_ends_fetched {bytes : List Byte} {how : Run} {o : Result}
    (h : Ends (fetched s bytes) how o) (answer : o = .next t) :
    NamesKept s t [] ∧ MemoryKept s t ∧ ChannelsKept s t := by
  obtain ⟨names, memory, channels⟩ := kept_of_ends h answer
  exact ⟨fun k hip hk => (names k hip hk).trans (nameValue_fetched hip), memory, channels⟩

/-- Settles O10: each way in which a step faults keeps all but `ip` and records a legal value. -/
theorem faultsArePrecise : Obligations.FaultsArePrecise := by
  intro s t cause running empty h faulted
  have ended : t.run ≠ .running := by simp [faulted]
  have precise : (NamesKept s t [] ∧ MemoryKept s t ∧ ChannelsKept s t) ∧ cause.legal := by
    obtain ⟨illegal, how, ends⟩ | ⟨bytes, -, -, how, ends⟩ | ⟨i, -, -, endsBy, ends⟩ :=
      how_step_ends running empty h ended
    · cases faulted.symm.trans how
      exact ⟨kept_of_ends ends h, illegal⟩
    · cases faulted.symm.trans how
      exact ⟨kept_of_ends_fetched ends h, trivial⟩
    · exact ⟨kept_of_ends_fetched ends h, legal_of_endsBy (faulted ▸ endsBy)⟩
  simpa only [and_assoc] using precise

/-! ### The channels over a run -/

/-- Output is added at the end and input removed at the front, or neither (R38, R39). -/
def ChannelsOrdered (s t : State) : Prop :=
  s.output <+: t.output ∧ t.input <:+ s.input

theorem ChannelsOrdered.refl (s : State) : ChannelsOrdered s s :=
  ⟨⟨[], List.append_nil _⟩, ⟨[], rfl⟩⟩

theorem ChannelsOrdered.trans {u : State} (h : ChannelsOrdered s t) (h' : ChannelsOrdered t u) :
    ChannelsOrdered s u :=
  ⟨h.1.trans h'.1, h'.2.trans h.2⟩

/-- An instruction keeps the order of the channels: a put appends, a get takes the first byte. -/
theorem channelsOrdered_of_exec (h : exec i s = .next t) : ChannelsOrdered s t := by
  obtain ⟨output, input⟩ := onlyPutcAndGetcUseTheChannels i s t h
  refine ⟨?_, ?_⟩
  · obtain same | ⟨-, appended⟩ | ⟨n, -, appended⟩ := output
    · exact ⟨[], (List.append_nil _).trans same.symm⟩
    · exact ⟨_, appended.symm⟩
    · exact ⟨_, appended.symm⟩
  · obtain same | ⟨-, v, taken⟩ := input
    · exact ⟨[], same⟩
    · exact ⟨[v], taken.symm⟩

/-- Where a decoding attempt leads, the order of the channels is kept: it fetches on, raises a fault, or
dispatches (R202 to R204). -/
theorem channelsOrdered_of_decodeAttempt :
    (∀ u, decodeAttempt s = .more u → ChannelsOrdered s u) ∧
      ∀ t, decodeAttempt s = .done (.next t) → ChannelsOrdered s t := by
  unfold decodeAttempt
  split
  · exact ⟨fun u h => Micro.more.inj h ▸ .refl s, nofun⟩
  · exact ⟨nofun, fun t h => Host.Outcome.next.inj (Micro.done.inj h) ▸ .refl s⟩
  · exact ⟨nofun, fun t h => Host.Outcome.next.inj (Micro.done.inj h) ▸ .refl s⟩
  · exact ⟨nofun, fun t h => channelsOrdered_of_exec (Micro.done.inj h)⟩

/-- So it is where a micro-step leads: a fetch touches no channel. -/
theorem channelsOrdered_of_microStep :
    (∀ u, microStep s = .more u → ChannelsOrdered s u) ∧
      ∀ t, microStep s = .done (.next t) → ChannelsOrdered s t := by
  unfold microStep
  split
  · exact ⟨nofun, fun t h => channelsOrdered_of_exec (Micro.done.inj h)⟩
  · exact channelsOrdered_of_decodeAttempt (s := fetchByte s)

theorem channelsOrdered_of_accumulate (fuel : Nat) :
    ∀ {s t : State}, accumulate fuel s = .next t → ChannelsOrdered s t := by
  induction fuel with
  | zero => exact fun h => nomatch h
  | succ fuel ih =>
    intro s t h
    obtain ⟨onMore, onDone⟩ := channelsOrdered_of_microStep (s := s)
    rw [accumulate] at h
    split at h
    next u more => exact (onMore u more).trans (ih h)
    next r done => exact onDone t (h ▸ done)

theorem channelsOrdered_of_step (h : step s = .next t) : ChannelsOrdered s t := by
  by_cases running : s.run = .running
  · simp only [step, running] at h
    exact channelsOrdered_of_accumulate _ h
  · cases (step_of_run_ne_running running).symm.trans h
    exact .refl s

/-- Settles O52: each step keeps the order, and the order composes. -/
theorem channelsAreOrderedOverRuns : Obligations.ChannelsAreOrderedOverRuns := by
  intro n
  induction n with
  | zero =>
    intro s t h
    cases h
    exact ChannelsOrdered.refl s
  | succ n ih =>
    intro s t h
    simp only [Host.Core.run, core_step_eq] at h
    split at h
    next u answer => exact (channelsOrdered_of_step answer).trans (ih u t h)
    next => cases h
    next => cases h

end Sys2Proof.Machine
end

section
/-! SUPPORT. A register that an instruction does not name (spec/10_state.md R22): writing it before the
instruction is writing it after. -/

namespace Sys2Proof.Machine

/-! ### A write of one register beside the operations -/

section commute
variable (s u : State) {r : Reg} (v : Byte)

theorem rfRead_setReg {k : RegOrFlag} (h : Operand.reg (.reg r) ≠ .reg k) :
    rfRead (s.setReg r v) k = rfRead s k := by
  cases k with
  | reg r' => rw [rfRead_reg, rfRead_reg, State.getReg_setReg, if_neg fun e : r' = r => h (e ▸ rfl)]
  | flag f => simp

theorem val_setReg {o : Operand} (h : .reg (.reg r) ≠ o) : val (s.setReg r v) o = val s o := by
  cases o with
  | imm n => rfl
  | reg k => exact rfRead_setReg s v h

theorem rfWrite_setReg {k : RegOrFlag} (h : Operand.reg (.reg r) ≠ .reg k) (n : Int) :
    rfWrite (s.setReg r v) k n = (rfWrite s k n).setReg r v := by
  cases k with
  | reg r' => cases r <;> cases r' <;> first | rfl | exact absurd rfl h
  | flag f => cases r <;> cases f <;> rfl

theorem setReg_input (bytes : List Byte) :
    { s.setReg r v with input := bytes } = { s with input := bytes }.setReg r v := by
  cases r <;> rfl

theorem setReg_output (bytes : List Byte) :
    { s.setReg r v with output := bytes } = { s with output := bytes }.setReg r v := by
  cases r <;> rfl

theorem setReg_sp (h : r ≠ .sp) (w : Byte) :
    { s.setReg r v with sp := w } = { s with sp := w }.setReg r v := by
  cases r <;> first | rfl | exact absurd rfl h

theorem setReg_ip (h : r ≠ .ip) (w : Byte) :
    { s.setReg r v with ip := w } = { s with ip := w }.setReg r v := by
  cases r <;> first | rfl | exact absurd rfl h

theorem sp_setReg (h : r ≠ .sp) : (s.setReg r v).sp = s.sp := by
  cases r <;> first | rfl | exact absurd rfl h

theorem store_setReg (a : Addr) (w : Byte) : (s.setReg r v).store a w = (s.store a w).setReg r v := by
  cases r <;> rfl

theorem settest_setReg (n : Int) : settest n (s.setReg r v) = (settest n s).setReg r v := by
  cases r <;> rfl

theorem endRun_setReg (how : Run) : (s.setReg r v).endRun how = (s.endRun how).setReg r v := by
  cases r <;> rfl

theorem complete_setReg (h : r ≠ .ip) :
    complete (s.setReg r v) (u.setReg r v) = mapNext (fun t => t.setReg r v) (complete s u) := by
  cases r <;> first | rfl | exact absurd rfl h

end commute

/-! ### Operations -/

/-- The predicate of a jump, and of no other operation. -/
def Operation.predicate : Operation → State → Bool
  | .jump p _ => p
  | _ => fun _ => true

/-- No jump's predicate looks at a register but the accumulator (R182 to R191). -/
theorem predicate_setReg (i : Instr) (s : State) {r : Reg} (v : Byte) (h : r ≠ .a) :
    (operationOf i).predicate (s.setReg r v) = (operationOf i).predicate s := by
  cases i with
  | joi | jnoi | jzi | jnzi | jpei | jpoi | jli | jlei | jgei => cases r <;> rfl
  | jazi => cases r <;> first | rfl | exact absurd rfl h
  | _ => rfl

/-- An operation neither depends on nor changes a register that it does not name and does not use
implicitly. -/
theorem Operation.perform_setReg {o : Operation} (s : State) {r : Reg} (v : Byte) (ha : r ≠ .a)
    (hip : r ≠ .ip) (hsp : r ≠ .sp) (unnamed : Operand.reg (.reg r) ∉ o.operands)
    (hp : o.predicate (s.setReg r v) = o.predicate s) :
    o.perform (s.setReg r v) = mapNext (fun t => t.setReg r v) (o.perform s) := by
  have other {x : Operand} (hx : x ∈ o.operands) : .reg (.reg r) ≠ x := fun e => unnamed (e ▸ hx)
  have commutes (u : State) := complete_setReg s u v hip
  cases o with
  | halt => exact congrArg _ (endRun_setReg s v _)
  | reserved op => exact congrArg _ (endRun_setReg s v _)
  | get k =>
    cases h : s.input with
    | nil => simp [Operation.perform, getInto, h, mapNext]
    | cons w rest =>
      simp only [Operation.perform, getInto, State.input_setReg, h, setReg_input,
        rfWrite_setReg _ v (other (.head _)), commutes]
  | put o =>
    simp only [Operation.perform, putByte, State.output_setReg, val_setReg s v (other (.head _)),
      setReg_output, commutes]
  | compute f o k =>
    simp only [Operation.perform, assign, val_setReg s v (other (.head _)),
      rfWrite_setReg s v (other (.tail _ (.head _))), commutes]
  | binary op o k =>
    have hk := other (.tail _ (.head _))
    simp only [Operation.perform, Machine.binary, rfRead_setReg s v hk, val_setReg s v (other (.head _))]
    cases op.apply (rfRead s k) (val s o) with
    | ok n => simp only [assign, rfWrite_setReg s v hk, commutes]
    | error cause => exact congrArg _ (endRun_setReg s v _)
  | store address o =>
    simp only [Operation.perform, storeAt, val_setReg s v (other (.head _)),
      val_setReg s v (other (.tail _ (.head _))), store_setReg, commutes]
  | load address k =>
    simp only [Operation.perform, loadInto, assign, State.mem_setReg, val_setReg s v (other (.head _)),
      rfWrite_setReg s v (other (.tail _ (.head _))), commutes]
  | test f o =>
    have acc : Operand.reg (.reg r) ≠ .reg accumulator := fun e => ha (by cases e; rfl)
    simp only [Operation.perform, rfRead_setReg s v acc, val_setReg s v (other (.head _)), settest_setReg,
      commutes]
  | jump p o =>
    have same : p (s.setReg r v) = p s := hp
    simp only [Operation.perform, same, val_setReg s v (other (.head _)), jumpIf, jumpTo]
    cases p s with
    | true => simp only [if_true, setReg_ip s v hip, commutes]
    | false => exact commutes s
  | push o =>
    simp only [Operation.perform, pushValue, sp_setReg s v hsp, val_setReg s v (other (.head _)),
      setReg_sp s v hsp, store_setReg, commutes]
  | pop k =>
    simp only [Operation.perform, popInto, State.mem_setReg s, sp_setReg s v hsp,
      rfWrite_setReg s v (other (.head _))]
    rw [sp_setReg _ v hsp, setReg_sp _ v hsp, commutes]

/-- Settles O55: an operation names what its instruction does, or the accumulator. -/
theorem unnamedRegistersHaveNoInfluence : Obligations.UnnamedRegistersHaveNoInfluence := by
  intro i s r v ha hip hsp unnamed
  rw [exec_eq_perform, exec_eq_perform]
  refine Operation.perform_setReg s v ha hip hsp (fun named => ?_) (predicate_setReg i s v ha)
  obtain own | isAcc := mem_operands_of_operationOf named
  · exact unnamed own
  · exact ha (RegOrFlag.reg.inj (Operand.reg.inj isAcc))

end Sys2Proof.Machine
end

section
/-! SUPPORT. Stores and what reads memory after them (spec/20_memory.md R62; 70_reset_and_hazards.md R273). -/

namespace Sys2Proof.Machine

/-- An operation that stores leaves memory with its byte written, and nothing else of memory changed. -/
theorem Operation.mem_of_stores {o : Operation} {s t : State} {a : Addr} {v : Byte}
    (h : o.Answers s t) (stores : o.stores s = some (a, v)) : t.mem = s.mem.write a v := by
  cases h with
  | waits isGet =>
    subst isGet
    cases stores
  | ends ending => cases ending <;> cases stores
  | completes leaves =>
    rw [State.mem_retire]
    obtain ⟨none, -⟩ | ⟨b, w, stores', written⟩ := leaves.mem_cases
    · cases none.symm.trans stores
    · cases stores'.symm.trans stores
      exact written

/-- Settles O56: every reader of memory reads it after the one write of the store. -/
theorem storesAreSeenAtOnce : Obligations.StoresAreSeenAtOnce := by
  intro i s t _ address answer
  rw [storedAddress_eq] at address
  obtain ⟨⟨a, v⟩, stores, rfl⟩ := Option.map_eq_some_iff.1 address
  refine ⟨v, by rw [storedByte_eq, stores, Option.map_some], fun u hmem => ?_⟩
  have read (b : Addr) : readAfterStore s a v b = u.mem.read b := by
    rw [hmem, Operation.mem_of_stores (answers_of_exec answer) stores, Memory.read_write, readAfterStore]
  obtain ⟨-, -, -, -, loads⟩ := loadRules
  obtain ⟨loadi, loadr, loadir, loadrr⟩ := loads u
  simp only [read]
  exact ⟨rfl, loadi, loadr, loadir, loadrr, fun j k hpop => popLeaves_of_isPopInto hpop u⟩

end Sys2Proof.Machine
end
